-- ==== Sys2Proof/Word.lean ====
section
/-! DEFINITION. The bit-vector widths of the block (R8, R13, R34, R37). -/

namespace Sys2Proof

/-- A 16-bit register, payload or read-port value (R13, R49, R37). -/
abbrev Half := BitVec 16

/-- A 32-bit command word, the `cmd` signal (R34, R49). -/
abbrev CmdWord := BitVec 32

/-- A 4-bit register read index, the `rd_addr` signal (R34, R37). -/
abbrev ReadIndex := BitVec 4

/-- One byte of a byte transport of command words (R40); the block itself moves no bytes. -/
abbrev Byte := BitVec 8

end Sys2Proof
end

