-- ==== Sys2Proof/Syntax.lean ====
section
/-! DEFINITION. The seven commands of TN-CMD v1 (R51), one constructor per row of the opcode table. -/

namespace Sys2Proof

/-- A decoded command (R56). An `imm16` operand is a 16-bit pattern and `rev` is one bit (R52). -/
inductive Instr where
  /-- NOP (R73). -/
  | nop
  /-- WRMIN imm16: pending minRaw (R59). -/
  | wrmin (imm : Half)
  /-- WRMAX imm16: pending maxRaw (R60). -/
  | wrmax (imm : Half)
  /-- WRCFG rev: pending reverse bit (R61). -/
  | wrcfg (rev : Bool)
  /-- COMMIT (R62). -/
  | commit
  /-- NORM imm16: raw sample (R64). -/
  | norm (imm : Half)
  /-- CLRSTS (R74). -/
  | clrsts
deriving DecidableEq, Repr

end Sys2Proof
end

