-- ==== Sys2Proof/WellFormed.lean ====
section
/-! DEFINITION. What is well formed: a command word, by the three conditions of R54, and a decoded command.

The word checks are written on the number `w.toNat` and not with the decoder's bit fields, so that "the decoder
accepts exactly the legal words" compares two texts. -/

namespace Sys2Proof

/-- `cmd[31:20] = 0` (R50, first condition of R54). -/
def rsvClear (w : CmdWord) : Bool := w.toNat / 2 ^ 20 == 0

/-- `cmd[19:16]` is not in 0x7..0xF (R51, second condition of R54). -/
def opDefined (w : CmdWord) : Bool := w.toNat / 2 ^ 16 % 16 < 7

/-- No payload bit that R53 reserves is set: the whole payload of NOP, COMMIT and CLRSTS, bits 15:1 of WRCFG
(third condition of R54). -/
def payloadClear (w : CmdWord) : Bool :=
  let op := w.toNat / 2 ^ 16 % 16
  if op == 0 || op == 4 || op == 6 then w.toNat % 2 ^ 16 == 0
  else if op == 3 then w.toNat % 2 ^ 16 / 2 == 0
  else true

/-- A legal command word: none of the three conditions of R54 holds. -/
def legalWord (w : CmdWord) : Bool := rsvClear w && opDefined w && payloadClear w

/-- Well-formedness of a decoded command. The operand types carry every width, and R52 says that each of the
65536 patterns of `imm16` and both values of `rev` are legal, so no decoded command is ill formed; the checks that
can fail are those on words above. -/
def Instr.wellFormed : Instr → Bool
  | .nop => true
  | .wrmin _ => true
  | .wrmax _ => true
  | .wrcfg _ => true
  | .commit => true
  | .norm _ => true
  | .clrsts => true

end Sys2Proof
end

