-- ==== Sys2Proof/Decode.lean ====
section
/-! DEFINITION. Decoding and encoding of command words (R49 to R56), their byte transport (R40), and the opcode
table's match and mask rows (R51). -/

namespace Sys2Proof

/-- Why a word, or a byte string, is not a command. Each of the first three is the verdict ILLEGAL of R56. -/
inductive DecodeReject where
  /-- `cmd[31:20] != 0` (R50). -/
  | reservedHigh
  /-- `cmd[19:16]` in 0x7..0xF (R51). -/
  | reservedOpcode
  /-- A payload bit that R53 reserves is set. -/
  | reservedPayload
  /-- Fewer than four bytes: the byte transport of R40 carries no whole word (R49: every command is one word). -/
  | truncated
deriving DecidableEq, Repr

/-- Field `rsv`, bits 31:20 (R49). -/
def rsvField (w : CmdWord) : BitVec 12 := w.extractLsb' 20 12

/-- Field `op`, bits 19:16 (R49). -/
def opField (w : CmdWord) : BitVec 4 := w.extractLsb' 16 4

/-- Field `payload`, bits 15:0 (R49). -/
def payloadField (w : CmdWord) : Half := w.extractLsb' 0 16

/-- `{rsv = 0, op, payload}`, the one command format (R49). -/
def formatWord (op : BitVec 4) (payload : Half) : CmdWord := 0#12 ++ op ++ payload

/-- `zext_16` of a one-bit operand: bit 0 is `rev`, bits 15:1 are 0 (R52, R61). -/
def revPayload (rev : Bool) : Half := if rev then 1#16 else 0#16

/-- Commands without an operand: the payload must be 0x0000 (R53). -/
def noPayload (p : Half) (i : Instr) : Except DecodeReject Instr :=
  if p = 0#16 then .ok i else .error .reservedPayload

/-- WRCFG: bits 15:1 of the payload must be 0, bit 0 is `rev` (R52, R53). -/
def revOfPayload (p : Half) : Except DecodeReject Instr :=
  if p.extractLsb' 1 15 = 0#15 then .ok (.wrcfg (p.getLsbD 0)) else .error .reservedPayload

/-- The opcode map of R51, for a word whose `rsv` field is 0. -/
def decodeOp (op : BitVec 4) (p : Half) : Except DecodeReject Instr :=
  match op.toNat with
  | 0 => noPayload p .nop
  | 1 => .ok (.wrmin p)
  | 2 => .ok (.wrmax p)
  | 3 => revOfPayload p
  | 4 => noPayload p .commit
  | 5 => .ok (.norm p)
  | 6 => noPayload p .clrsts
  | _ => .error .reservedOpcode

/-- Decoding of a command word, total on all 2^32 words (R56). -/
def decode (w : CmdWord) : Except DecodeReject Instr :=
  if rsvField w = 0#12 then decodeOp (opField w) (payloadField w) else .error .reservedHigh

/-- The command word of a command (R49, R51, R52). -/
def encode : Instr → CmdWord
  | .nop => formatWord 0x0#4 0#16
  | .wrmin imm => formatWord 0x1#4 imm
  | .wrmax imm => formatWord 0x2#4 imm
  | .wrcfg rev => formatWord 0x3#4 (revPayload rev)
  | .commit => formatWord 0x4#4 0#16
  | .norm imm => formatWord 0x5#4 imm
  | .clrsts => formatWord 0x6#4 0#16

/-- A command word from its four bytes, little-endian: byte 0 holds bits 7:0 (R40). -/
def wordOfBytes (b0 b1 b2 b3 : Byte) : CmdWord := b3 ++ b2 ++ b1 ++ b0

/-- The four bytes of a command word, little-endian (R40). -/
def bytesOfWord (w : CmdWord) : List Byte :=
  [w.extractLsb' 0 8, w.extractLsb' 8 8, w.extractLsb' 16 8, w.extractLsb' 24 8]

/-- Decoding of a byte transport of commands (R40): one command and the bytes after it. -/
def decodeBytes : List Byte → Except DecodeReject (Instr × List Byte)
  | b0 :: b1 :: b2 :: b3 :: rest =>
    match decode (wordOfBytes b0 b1 b2 b3) with
    | .ok i => .ok (i, rest)
    | .error e => .error e
  | _ => .error .truncated

/-- The bytes of a command (R40). -/
def encodeBytes (i : Instr) : List Byte := bytesOfWord (encode i)

/-- A row of R51's second table. -/
structure OpRow where
  mnemonic : String
  matchBits : CmdWord
  mask : CmdWord
deriving DecidableEq, Repr

/-- `(w & mask_X) == match_X` (R51). -/
def OpRow.hits (r : OpRow) (w : CmdWord) : Bool := w &&& r.mask == r.matchBits

/-- Match and mask of each command (R51). -/
def opTable : List OpRow :=
  [⟨"NOP", 0x00000000#32, 0xFFFFFFFF#32⟩,
   ⟨"WRMIN", 0x00010000#32, 0xFFFF0000#32⟩,
   ⟨"WRMAX", 0x00020000#32, 0xFFFF0000#32⟩,
   ⟨"WRCFG", 0x00030000#32, 0xFFFFFFFE#32⟩,
   ⟨"COMMIT", 0x00040000#32, 0xFFFFFFFF#32⟩,
   ⟨"NORM", 0x00050000#32, 0xFFFF0000#32⟩,
   ⟨"CLRSTS", 0x00060000#32, 0xFFFFFFFF#32⟩]

/-- The mnemonic of a command as R51 spells it. -/
def Instr.mnemonic : Instr → String
  | .nop => "NOP"
  | .wrmin _ => "WRMIN"
  | .wrmax _ => "WRMAX"
  | .wrcfg _ => "WRCFG"
  | .commit => "COMMIT"
  | .norm _ => "NORM"
  | .clrsts => "CLRSTS"

/-- The command word whose low `nbits` bits are those of `w`, every bit above them 0. -/
def tableWord (nbits w : Nat) : CmdWord := BitVec.ofNat 32 (w % 2 ^ nbits)

/-- The command the decoder reads from an opcode-table word. -/
def decodeTableWord (nbits w : Nat) : Option Instr :=
  match decode (tableWord nbits w) with
  | .ok i => some i
  | .error _ => none

end Sys2Proof
end

