-- ==== Sys2Proof/Config.lean ====
section
/-! DEFINITION. The build-time parameters of the block (R6, R7) and the one free value of the model.

`P_DEADBAND` and `P_NOISE` have no value in the spec (R7, 93 rows 2.1 and 2.2: OPEN). They are constants with
no body: the only thing a proof can learn of them is their legal range, which their types carry. -/

namespace Sys2Proof.Config

/-- `THROTTLE_NORMALIZED`, the top of the normalized range (R6). -/
def full : Nat := 256

/-- `P_DEADBAND - 1`; the type is R7's legal range 1..127 shifted by one. Free (log entry 2). -/
opaque deadbandIndex : Fin 127

/-- `P_DEADBAND`, the source's THROTTLE_DEADBAND_NORM: some value in 1..127 (R7). -/
def pDeadband : Nat := deadbandIndex.val + 1

/-- `P_NOISE`; the type is R7's legal range `0 <= P_NOISE < P_DEADBAND`. Free (log entry 2). -/
opaque noiseIndex : Fin (deadbandIndex.val + 1)

/-- `P_NOISE`, the source's THROTTLE_NOISE_NORM (R7). Only NOISE_PARAM reads it (R25). -/
def pNoise : Nat := noiseIndex.val

/-- What the rescale of R68 gives for the clamped sample `c` when both effective bounds are equal. The spec
excludes that case (R65: `lo != hi` always holds), so no run from reset asks for it and nothing is known of the
value (log entry 5). -/
opaque zeroSpanScale : Int → Nat

end Sys2Proof.Config
end

