-- ==== Sys2Proof/Machine/State.lean ====
section
/-! DEFINITION. The architectural state (R13), the input signals the host drives (R34), the stops, and reset. -/

namespace Sys2Proof.Machine

/-- The input signals of one clock step (R34): what the host drives before one rising edge of `clk`. -/
structure Stimulus where
  /-- `rst`: synchronous reset, active high (R93). -/
  rst : Bool
  /-- `cmd_valid`: a command word is presented this step. -/
  cmdValid : Bool
  /-- `cmd`: the command word; ignored while `cmd_valid = 0` (R103). -/
  cmd : CmdWord
  /-- `rd_addr`: the register read index; it changes no state (R38). -/
  rdAddr : ReadIndex
deriving DecidableEq, Repr

/-- The machine: the nine registers of R13, and the steps the host has still to drive. -/
structure State where
  /-- CAL_MIN, the active `minRaw` (R16). -/
  calMin : Half
  /-- CAL_MAX, the active `maxRaw` (R17). -/
  calMax : Half
  /-- CFG, the active configuration; bit 0 is REV (R18). -/
  cfg : Half
  /-- SH_MIN, the shadow `minRaw` (R19). -/
  shMin : Half
  /-- SH_MAX, the shadow `maxRaw` (R20). -/
  shMax : Half
  /-- SH_CFG, the shadow configuration (R21). -/
  shCfg : Half
  /-- NORM_OUT, the last normalized result (R22). -/
  normOut : Half
  /-- LAST_RAW, the last raw sample as given (R23). -/
  lastRaw : Half
  /-- STATUS (R27). -/
  status : Half
  /-- The MODEL's own field, no state of the block (R15: which command comes next is the host's choice): what the
  host drives on the coming clock steps, the next step first (log entry 1). -/
  inputs : List Stimulus
deriving DecidableEq, Repr

/-- The ways the machine can stop with a fault: none. The block has no traps and accepts one command on every step
(R34, R76); each error of R77 is a next state. -/
inductive Fault where
deriving DecidableEq, Repr

/-- The ways a step can be refused. -/
inductive Refusal where
  /-- Raised only by an arm of `exec` for an instruction without a meaning. No arm raises it in this model. Safe. -/
  | notModelled (mnemonic : String)
deriving DecidableEq, Repr

/-- The state after reset and at power-up (R33, R93), with no step driven yet. -/
def State.reset : State where
  calMin := 0x0000#16
  calMax := 0x0000#16
  cfg := 0x0000#16
  shMin := 0x0000#16
  shMax := 0x0000#16
  shCfg := 0x0000#16
  normOut := 0x0000#16
  lastRaw := 0x0000#16
  status := 0x0000#16
  inputs := []

end Sys2Proof.Machine
end

