-- ==== Sys2Proof/Machine/Flags.lean ====
section
/-! DEFINITION. The bits of STATUS (R27) and the error causes (R77). -/

namespace Sys2Proof.Machine

/-- The named bits of STATUS (R27). -/
inductive StatusBit where
  | outValid | calValid | dbLo | dbHi | clip | calErr | commitRej | illegal
deriving DecidableEq, Repr

/-- The place of each bit (R27). -/
def StatusBit.index : StatusBit → Nat
  | .outValid => 0
  | .calValid => 1
  | .dbLo => 2
  | .dbHi => 3
  | .clip => 4
  | .calErr => 5
  | .commitRej => 6
  | .illegal => 7

/-- `w` with bit `n` set to `v` and every other bit kept. -/
def putBit (w : Half) (n : Nat) (v : Bool) : Half :=
  if v then w ||| BitVec.twoPow 16 n else w &&& ~~~(BitVec.twoPow 16 n)

/-- `STATUS.F` (R10). -/
def State.flag (s : State) (b : StatusBit) : Bool := s.status.getLsbD b.index

/-- `STATUS.F <- v` (R10): the other bits, reserved ones included, keep their values. -/
def State.setFlag (s : State) (b : StatusBit) (v : Bool) : State :=
  { s with status := putBit s.status b.index v }

/-- The three errors (R77). -/
inductive ErrorCause where
  | calibrationInvalid | commitRejected | illegalCommand
deriving DecidableEq, Repr

/-- The sticky bit of each error (R77). -/
def ErrorCause.bit : ErrorCause → StatusBit
  | .calibrationInvalid => .calErr
  | .commitRejected => .commitRej
  | .illegalCommand => .illegal

/-- The cause code of an error is the number of its STATUS bit (R77). -/
def ErrorCause.code (e : ErrorCause) : Nat := e.bit.index

/-- The four bits NORM writes, in one update (R64). -/
def State.setNormFlags (s : State) (outValid dbLo dbHi clip : Bool) : State :=
  (((s.setFlag .outValid outValid).setFlag .dbLo dbLo).setFlag .dbHi dbHi).setFlag .clip clip

/-- `err_o`, the OR of the sticky bits (R84). -/
def State.errO (s : State) : Bool := s.flag .calErr || s.flag .commitRej || s.flag .illegal

end Sys2Proof.Machine
end

