-- ==== Sys2Proof/Machine/Operands.lean ====
section
/-! DEFINITION. Reading 16-bit patterns as numbers and back (R9, R52), and the operand-like bits of the configuration. -/

namespace Sys2Proof.Machine

/-- `sext_16(v)`: a two's complement integer in -32768..32767 (R9). -/
def sext16 (v : Half) : Int := v.toInt

/-- `zext_16(v)`: an unsigned integer in 0..65535 (R9). -/
def zext16 (v : Half) : Nat := v.toNat

/-- The 16-bit register pattern of an unsigned result (R22, R64). -/
def halfOfNat (n : Nat) : Half := BitVec.ofNat 16 n

/-- REV, bit 0 of a configuration register (R18, R21). -/
def revBit (cfg : Half) : Bool := cfg.getLsbD 0

end Sys2Proof.Machine
end

