-- ==== Sys2Proof/Machine/Scaling.lean ====
section
/-! DEFINITION. The arithmetic of NORM (R65 to R69), on unbounded integers, with the deadband width as an argument. -/

namespace Sys2Proof.Machine

/-- Effective bounds `(lo, hi)`: `lo` maps to 0, `hi` maps to 256; REV swaps them (R65). -/
def effBounds (a b : Int) (rev : Bool) : Int × Int := if rev then (b, a) else (a, b)

/-- The raw sample clamped to the closed interval between the bounds, and whether it lay outside (R66). -/
def clampRaw (raw lo hi : Int) : Int × Bool :=
  (max (min lo hi) (min raw (max lo hi)), decide (raw < min lo hi) || decide (max lo hi < raw))

/-- The linear rescale, rounded down (R68). For equal bounds, which the spec excludes, the value is free
(log entry 5). -/
def scale (c lo hi : Int) : Nat :=
  if lo = hi then Config.zeroSpanScale c else (c - lo).natAbs * Config.full / (hi - lo).natAbs

/-- The two-ended deadband of width `db`: the value, DB_LO and DB_HI (R67). -/
def deadband (s db : Nat) : Nat × Bool × Bool :=
  if s ≤ db then (0, true, false)
  else if Config.full - db ≤ s then (Config.full, false, true)
  else (s, false, false)

/-- What one normalization produces (R64). -/
structure NormResult where
  value : Nat
  dbLo : Bool
  dbHi : Bool
  clip : Bool
deriving DecidableEq, Repr

/-- `normalize` of the source's §4.1 for a calibration `(a, b)`, the reverse bit and the deadband width: bounds,
clamp, scale, deadband, in this order (R64). -/
def normalizeSample (db : Nat) (raw a b : Int) (rev : Bool) : NormResult :=
  let bounds := effBounds a b rev
  let clamped := clampRaw raw bounds.1 bounds.2
  let banded := deadband (scale clamped.1 bounds.1 bounds.2) db
  ⟨banded.1, banded.2.1, banded.2.2, clamped.2⟩

/-- `abs(x - y)` of two int16 patterns in a datapath of `n` bits: both are sign-extended and subtracted, and a negative
difference is negated (R69). -/
def absDiffBits (n : Nat) (x y : Half) : BitVec n :=
  let d := x.signExtend n - y.signExtend n
  if d.msb then -d else d

/-- The rescale of R68 in an unsigned datapath of `n` bits, for different bounds (R69: for `n` at least 24 it gives the
same results as unbounded integers). -/
def scaleBits (n : Nat) (c lo hi : Half) : BitVec n := (absDiffBits n c lo <<< 8) / absDiffBits n hi lo

end Sys2Proof.Machine
end

