-- ==== Sys2Proof/Machine/Ops.lean ====
section
/-! DEFINITION. The shared operations over registers: raising an error and acknowledging it, reset, the update of
the active calibration, the two effects of NORM, the read port and the outputs. -/

namespace Sys2Proof.Machine

/-- `reg[SH_MIN] <- v` (R10, R19). -/
def State.setShMin (s : State) (v : Half) : State := { s with shMin := v }

/-- `reg[SH_MAX] <- v` (R10, R20). -/
def State.setShMax (s : State) (v : Half) : State := { s with shMax := v }

/-- `reg[SH_CFG] <- v` (R10, R21). -/
def State.setShCfg (s : State) (v : Half) : State := { s with shCfg := v }

/-- `raise <Error>`: set the error's sticky bit; nothing else changes, nothing is saved and nothing is redirected
(R10, R76, R85). This is the block's whole exception entry. -/
def State.raise (s : State) (e : ErrorCause) : State := s.setFlag e.bit true

/-- The only acknowledgement of errors: all three sticky bits are cleared (R74, R86). This stands where other
machines return from an exception. -/
def State.acknowledge (s : State) : State :=
  ((s.setFlag .calErr false).setFlag .commitRej false).setFlag .illegal false

/-- A step with `rst = 1`: every register takes its reset value (R93). What the host drives later is no register. -/
def State.resetRegisters (s : State) : State := { State.reset with inputs := s.inputs }

/-- The atomic copy of the shadow registers to the active ones, with CAL_VALID set (R46, R62). -/
def State.installCalibration (s : State) : State :=
  { s with calMin := s.shMin, calMax := s.shMax, cfg := s.shCfg }.setFlag .calValid true

/-- The result of normalizing `imm` with the active calibration of `s` (R64). -/
def State.normResult (s : State) (db : Nat) (imm : Half) : NormResult :=
  normalizeSample db (sext16 imm) (sext16 s.calMin) (sext16 s.calMax) (revBit s.cfg)

/-- NORM with CAL_VALID = 1, for a deadband width `db` (R64). -/
def State.normCalibrated (s : State) (db : Nat) (imm : Half) : State :=
  let r := s.normResult db imm
  { s with lastRaw := imm, normOut := halfOfNat r.value }.setNormFlags true r.dbLo r.dbHi r.clip

/-- NORM with CAL_VALID = 0: CalibrationInvalid is raised and the result is the placeholder 0 (R64, R72, R79). -/
def State.normUncalibrated (s : State) (imm : Half) : State :=
  ({ s with lastRaw := imm, normOut := 0x0000#16 }.setNormFlags false false false false).raise .calibrationInvalid

/-- The registers of the read map (R37); the last three are hardwired parameters (R24 to R26). -/
inductive RegName where
  | status | normOut | lastRaw | calMin | calMax | cfg | shMin | shMax | shCfg
  | dbParam | fullScale | noiseParam
deriving DecidableEq, Repr

/-- `reg[NAME]` (R10, R13, R24 to R26). -/
def State.readReg (s : State) : RegName → Half
  | .status => s.status
  | .normOut => s.normOut
  | .lastRaw => s.lastRaw
  | .calMin => s.calMin
  | .calMax => s.calMax
  | .cfg => s.cfg
  | .shMin => s.shMin
  | .shMax => s.shMax
  | .shCfg => s.shCfg
  | .dbParam => halfOfNat Config.pDeadband
  | .fullScale => halfOfNat Config.full
  | .noiseParam => halfOfNat Config.pNoise

/-- The register read map (R37); 0xC..0xF are reserved. -/
def regAt (a : ReadIndex) : Option RegName :=
  match a.toNat with
  | 0x0 => some .status
  | 0x1 => some .normOut
  | 0x2 => some .lastRaw
  | 0x3 => some .calMin
  | 0x4 => some .calMax
  | 0x5 => some .cfg
  | 0x6 => some .shMin
  | 0x7 => some .shMax
  | 0x8 => some .shCfg
  | 0x9 => some .dbParam
  | 0xA => some .fullScale
  | 0xB => some .noiseParam
  | _ => none

/-- The combinational read port (R38); a reserved index reads as 0x0000 (R39). -/
def State.readPort (s : State) (a : ReadIndex) : Half :=
  match regAt a with
  | some r => s.readReg r
  | none => 0x0000#16

/-- The output signals (R34). -/
structure Outputs where
  /-- `rd_data`. -/
  rdData : Half
  /-- `norm_out`, a copy of NORM_OUT. -/
  normOut : Half
  /-- `out_valid`, a copy of STATUS.OUT_VALID. -/
  outValid : Bool
  /-- `err_o` (R84). -/
  errO : Bool
deriving DecidableEq, Repr

/-- The outputs while the block is in state `s` and the host drives `rd_addr` with `a` (R34, R38): those of the
state after the last completed step. -/
def State.outputs (s : State) (a : ReadIndex) : Outputs :=
  ⟨s.readPort a, s.normOut, s.flag .outValid, s.errO⟩

end Sys2Proof.Machine
end

