-- ==== Sys2Proof/Machine/Calibration.lean ====
section
/-! DEFINITION. The calibration commands WRMIN, WRMAX, WRCFG and COMMIT (R59 to R63). -/

namespace Sys2Proof.Machine

/-- WRMIN: `SH_MIN <- imm16` (R59). -/
def execWrmin (imm : Half) (s : State) : Host.Outcome State Fault Refusal :=
  .next (s.setShMin imm)

/-- WRMAX: `SH_MAX <- imm16` (R60). -/
def execWrmax (imm : Half) (s : State) : Host.Outcome State Fault Refusal :=
  .next (s.setShMax imm)

/-- WRCFG: `SH_CFG <- zext_16(rev)` (R61). -/
def execWrcfg (rev : Bool) (s : State) : Host.Outcome State Fault Refusal :=
  .next (s.setShCfg (revPayload rev))

/-- COMMIT: rejected when the pending bounds are equal, else the pending calibration becomes active (R62, R80). -/
def execCommit (s : State) : Host.Outcome State Fault Refusal :=
  .next (if s.shMin = s.shMax then s.raise .commitRejected else s.installCalibration)

end Sys2Proof.Machine
end

