-- ==== Sys2Proof/Machine/Control.lean ====
section
/-! DEFINITION. The control commands NOP and CLRSTS (R73, R74). -/

namespace Sys2Proof.Machine

/-- NOP: no state is written (R73). -/
def execNop (s : State) : Host.Outcome State Fault Refusal := .next s

/-- CLRSTS: the three sticky error bits are cleared (R74). -/
def execClrsts (s : State) : Host.Outcome State Fault Refusal := .next s.acknowledge

end Sys2Proof.Machine
end

