-- ==== Sys2Proof/Machine/Normalize.lean ====
section
/-! DEFINITION. The normalize command NORM (R64, R72). -/

namespace Sys2Proof.Machine

/-- NORM for a deadband width `db` (R64). -/
def State.norm (s : State) (db : Nat) (imm : Half) : State :=
  if s.flag .calValid then s.normCalibrated db imm else s.normUncalibrated imm

/-- NORM: the deadband width is the build-time parameter P_DEADBAND (R64, R67). -/
def execNorm (imm : Half) (s : State) : Host.Outcome State Fault Refusal :=
  .next (s.norm Config.pDeadband imm)

end Sys2Proof.Machine
end

