-- ==== Sys2Proof/Machine/Dispatch.lean ====
section
/-! DEFINITION. One arm per command, each a call of its meaning. -/

namespace Sys2Proof.Machine

/-- The meaning of a decoded command. -/
def exec (i : Instr) (s : State) : Host.Outcome State Fault Refusal :=
  match i with
  | .nop => Sys2Proof.Machine.execNop s
  | .wrmin imm => Sys2Proof.Machine.execWrmin imm s
  | .wrmax imm => Sys2Proof.Machine.execWrmax imm s
  | .wrcfg rev => Sys2Proof.Machine.execWrcfg rev s
  | .commit => Sys2Proof.Machine.execCommit s
  | .norm imm => Sys2Proof.Machine.execNorm imm s
  | .clrsts => Sys2Proof.Machine.execClrsts s

end Sys2Proof.Machine
end

