-- ==== Sys2Proof/Machine/Clock.lean ====
section
/-! DEFINITION. One rising edge of `clk`: reset, a presented word, or an idle step (R34, R75, R78, R93, R94). -/

namespace Sys2Proof.Machine

/-- A word presented with `cmd_valid = 1`: decoding comes first (R82); an illegal word raises IllegalCommand and
executes nothing (R78). -/
def present (w : CmdWord) (s : State) : Host.Outcome State Fault Refusal :=
  match decode w with
  | .ok i => exec i s
  | .error _ => .next (s.raise .illegalCommand)

/-- One clock step under the signals `x`. Reset wins over a command in the same step (R94); with `cmd_valid = 0`
the word is ignored and no state changes (R75, R103). -/
def clockEdge (x : Stimulus) (s : State) : Host.Outcome State Fault Refusal :=
  if x.rst then .next s.resetRegisters
  else if x.cmdValid then present x.cmd s
  else .next s

/-- The step in which the host presents the command word `w` and reads index 0. -/
def Stimulus.command (w : CmdWord) : Stimulus := ⟨false, true, w, 0x0#4⟩

/-- What the host sees during the next step it drives: the outputs of the state before that step, at the index it
drives on `rd_addr` (R34, R38); none where nothing more is driven. -/
def State.observed (s : State) : Option Outputs :=
  match s.inputs with
  | [] => none
  | x :: _ => some (s.outputs x.rdAddr)

end Sys2Proof.Machine
end

