-- ==== Sys2Proof/Machine/Step.lean ====
section
/-! DEFINITION. The step: the next signals the host drives are taken, and one clock edge is run under them. -/

namespace Sys2Proof.Machine

/-- One step. Where the host drives nothing more, `cmd_valid` and `rst` are 0 and the step is idle (R75, log
entry 1). -/
def step (s : State) : Host.Outcome State Fault Refusal :=
  match s.inputs with
  | [] => .next s
  | x :: rest => clockEdge x { s with inputs := rest }

/-- `s` with the opcode-table word presented on the very next step, before whatever the host drives already. -/
def State.withFetchWord (s : State) (nbits w : Nat) : State :=
  { s with inputs := Stimulus.command (tableWord nbits w) :: s.inputs }

end Sys2Proof.Machine
end

