-- ==== Sys2Proof/Machine/Assembler.lean ====
section
/-! DEFINITION. The assembler syntax and the pseudo-instructions (R57, R58). The assembler is on the host's side of
the interface: it produces command words, and no rule of the block reads it. -/

namespace Sys2Proof.Machine

/-- A spelling of `imm16`: a signed decimal, or a hex pattern (R57). -/
inductive AsmImm where
  | dec (v : Int)
  | hex (v : Nat)
deriving DecidableEq, Repr

/-- One line of assembler: a command (R51), a pseudo-instruction (R58), or the directive `.word` (R57). -/
inductive AsmLine where
  /-- A line with no token, blank or a comment alone. R57 does not speak of it; that it presents no word is the model's
  choice (DESIGN CHOICE, log entry 9). -/
  | empty
  | nop
  | wrmin (v : AsmImm)
  | wrmax (v : AsmImm)
  | wrcfg (rev : Nat)
  | commit
  | norm (v : AsmImm)
  | clrsts
  /-- `CAL lo, hi` and `CAL lo, hi, rev`. -/
  | cal (lo hi : AsmImm) (rev : Option Nat)
  | normalize (v : AsmImm)
  /-- `.word 0xHHHHHHHH`. -/
  | word (w : Nat)
deriving DecidableEq, Repr

/-- A spelling within its range: -32768..32767, or 0x0000..0xFFFF (R57). -/
def asmImmOk : AsmImm → Bool
  | .dec v => decide (-32768 ≤ v) && decide (v ≤ 32767)
  | .hex v => decide (v < 2 ^ 16)

/-- A line whose operands are within their ranges: `rev` is 0 or 1, a raw word has 32 bits (R57). -/
def asmLineOk : AsmLine → Bool
  | .empty => true
  | .nop => true
  | .wrmin v => asmImmOk v
  | .wrmax v => asmImmOk v
  | .wrcfg rev => decide (rev < 2)
  | .commit => true
  | .norm v => asmImmOk v
  | .clrsts => true
  | .cal lo hi rev => asmImmOk lo && asmImmOk hi && decide (rev.getD 0 < 2)
  | .normalize v => asmImmOk v
  | .word w => decide (w < 2 ^ 32)

/-- The 16 bits a spelling stands for (R57). -/
def asmImmBits : AsmImm → Half
  | .dec v => BitVec.ofInt 16 v
  | .hex v => BitVec.ofNat 16 v

/-- The bit a spelling of `rev` stands for (R57). -/
def asmRevBit (rev : Nat) : Bool := rev == 1

/-- The words of a line whose operands are in range (R57, R58). -/
def asmExpand : AsmLine → List CmdWord
  | .empty => []
  | .nop => [encode .nop]
  | .wrmin v => [encode (.wrmin (asmImmBits v))]
  | .wrmax v => [encode (.wrmax (asmImmBits v))]
  | .wrcfg rev => [encode (.wrcfg (asmRevBit rev))]
  | .commit => [encode .commit]
  | .norm v => [encode (.norm (asmImmBits v))]
  | .clrsts => [encode .clrsts]
  | .cal lo hi rev =>
    [encode (.wrmin (asmImmBits lo)), encode (.wrmax (asmImmBits hi)),
     encode (.wrcfg (asmRevBit (rev.getD 0))), encode .commit]
  | .normalize v => [encode (.norm (asmImmBits v))]
  | .word w => [BitVec.ofNat 32 w]

/-- The words a line presents, in order; none where an operand is out of range. -/
def assemble (l : AsmLine) : Option (List CmdWord) := if asmLineOk l then some (asmExpand l) else none

/-- White space between tokens. -/
def asmSpace (c : Char) : Bool := c == ' ' || c == '\t' || c == '\r' || c == '\n'

/-- The token read so far, put before the tokens after it unless it is empty. -/
def asmFlush (tok : List Char) (rest : List (List Char)) : List (List Char) :=
  if tok.isEmpty then rest else tok :: rest

/-- The tokens of a line; a comma is a token of its own, and `;` starts a comment that runs to the end (R57). -/
def asmTokens (tok : List Char) : List Char → List (List Char)
  | [] => asmFlush tok []
  | c :: cs =>
    if c == ';' then asmFlush tok []
    else if asmSpace c then asmFlush tok (asmTokens [] cs)
    else if c == ',' then asmFlush tok ([','] :: asmTokens [] cs)
    else asmTokens (tok ++ [c]) cs

/-- The value of one hexadecimal digit. -/
def asmHexDigit (c : Char) : Option Nat :=
  let n := c.toNat
  if 48 ≤ n && n ≤ 57 then some (n - 48)
  else if 65 ≤ n && n ≤ 70 then some (n - 55)
  else if 97 ≤ n && n ≤ 102 then some (n - 87)
  else none

/-- The number a digit string spells in base `base`, after `acc`; none at a character that is no such digit. -/
def asmDigits (base acc : Nat) : List Char → Option Nat
  | [] => some acc
  | c :: cs =>
    match asmHexDigit c with
    | some d => if d < base then asmDigits base (acc * base + d) cs else none
    | none => none

/-- Exactly `digits` hexadecimal digits after `0x` (R9, R57). -/
def asmHex (digits : Nat) : List Char → Option Nat
  | '0' :: 'x' :: ds => if ds.length == digits then asmDigits 16 0 ds else none
  | _ => none

/-- An unsigned decimal of at least one digit. -/
def asmDec : List Char → Option Nat
  | [] => none
  | d :: ds => asmDigits 10 0 (d :: ds)

/-- An `imm16` operand: a signed decimal or a four-digit hex pattern (R57). -/
def asmImm (tok : List Char) : Option AsmImm :=
  match asmHex 4 tok with
  | some v => some (.hex v)
  | none =>
    match tok with
    | '-' :: ds => (asmDec ds).map fun n => .dec (-(n : Int))
    | ds => (asmDec ds).map fun n => .dec (n : Int)

/-- A `rev` operand, written `0` or `1` (R57). -/
def asmRev : List Char → Option Nat
  | ['0'] => some 0
  | ['1'] => some 1
  | _ => none

/-- A line without operands. -/
def asmNullary (m : List Char) : Option AsmLine :=
  if m == "NOP".toList then some .nop
  else if m == "COMMIT".toList then some .commit
  else if m == "CLRSTS".toList then some .clrsts
  else none

/-- A line with one operand. -/
def asmUnary (m a : List Char) : Option AsmLine :=
  if m == "WRMIN".toList then (asmImm a).map .wrmin
  else if m == "WRMAX".toList then (asmImm a).map .wrmax
  else if m == "WRCFG".toList then (asmRev a).map .wrcfg
  else if m == "NORM".toList then (asmImm a).map .norm
  else if m == "NORMALIZE".toList then (asmImm a).map .normalize
  else none

/-- `CAL lo, hi` with the given reverse operand (R58). -/
def asmCal (m lo hi : List Char) (rev : Option Nat) : Option AsmLine :=
  if m == "CAL".toList then
    match asmImm lo, asmImm hi with
    | some l, some h => some (.cal l h rev)
    | _, _ => none
  else none

/-- A mnemonic with its letters made capital: mnemonics are not case-sensitive (R57). -/
def asmUpper (m : List Char) : List Char := m.map Char.toUpper

/-- A line from its tokens (R57, R58). A line with no token is accepted and presents no word: R57 is silent on it
(DESIGN CHOICE, log entry 9). -/
def asmOfTokens : List (List Char) → Option AsmLine
  | [] => some .empty
  | [m] => asmNullary (asmUpper m)
  | [m, a] => if m == ".word".toList then (asmHex 8 a).map .word else asmUnary (asmUpper m) a
  | [m, lo, [','], hi] => asmCal (asmUpper m) lo hi none
  | [m, lo, [','], hi, [','], rev] =>
    match asmRev rev with
    | some r => asmCal (asmUpper m) lo hi (some r)
    | none => none
  | _ => none

/-- The words one line of assembler text presents; none where the line is no line of R57. -/
def assembleText (line : String) : Option (List CmdWord) :=
  match asmOfTokens (asmTokens [] line.toList) with
  | some l => assemble l
  | none => none

end Sys2Proof.Machine
end

