-- ==== Sys2Proof/Safety.lean ====
section
/-! DEFINITION. What claims call a good state, a reachable state and a safe run.

The block stops at nothing. The spec asks a program-level model to treat three things as faults of the program that
issued them (R72, 93 rows 2.4 to 2.6): a NORM before any calibration, a COMMIT of equal bounds, an illegal word. The
machine takes the next state the spec gives; the predicates below name the misuse. -/

namespace Sys2Proof.Machine

/-- The invariant of R32. -/
structure State.Inv (s : State) : Prop where
  /-- `STATUS.CAL_VALID = 1` implies `CAL_MIN != CAL_MAX`. -/
  boundsDiffer : s.flag .calValid = true → s.calMin ≠ s.calMax
  /-- `zext_16(NORM_OUT) <= 256`. -/
  outRange : zext16 s.normOut ≤ 256
  /-- `CFG[15:1] = 0`. -/
  cfgReserved : s.cfg.extractLsb' 1 15 = 0#15
  /-- `SH_CFG[15:1] = 0`. -/
  shCfgReserved : s.shCfg.extractLsb' 1 15 = 0#15
  /-- `STATUS[15:8] = 0`. -/
  statusReserved : s.status.extractLsb' 8 8 = 0#8
  /-- DB_LO and DB_HI are not both 1. -/
  notBothBands : ¬(s.flag .dbLo = true ∧ s.flag .dbHi = true)
  /-- `STATUS.OUT_VALID = 1` implies `STATUS.CAL_VALID = 1`. -/
  outCalibrated : s.flag .outValid = true → s.flag .calValid = true

/-- A state reached from reset, whatever the host drives (R32). -/
inductive Reachable : State → Prop where
  | start (inputs : List Stimulus) : Reachable { State.reset with inputs := inputs }
  | step (s t : State) : Reachable s → Sys2Proof.Machine.step s = .next t → Reachable t

/-- The next step is a reset: the host drives `rst = 1` (R93). -/
def State.resets (s : State) : Prop := ∃ x rest, s.inputs = x :: rest ∧ x.rst = true

/-- The next step runs the command `i`: the host presents a word that decodes to it, and `rst = 0` (R34, R94). -/
def State.presents (s : State) (i : Instr) : Prop :=
  ∃ x rest, s.inputs = x :: rest ∧ x.rst = false ∧ x.cmdValid = true ∧ decode x.cmd = .ok i

/-- The next step is given an illegal word (R54, R78). -/
def State.presentsIllegal (s : State) : Prop :=
  ∃ x rest e, s.inputs = x :: rest ∧ x.rst = false ∧ x.cmdValid = true ∧ decode x.cmd = .error e

/-- The error a command raises in a state (R79, R80). -/
def commandError (i : Instr) (s : State) : Option ErrorCause :=
  match i with
  | .norm _ => if s.flag .calValid then none else some .calibrationInvalid
  | .commit => if s.shMin = s.shMax then some .commitRejected else none
  | .nop | .wrmin _ | .wrmax _ | .wrcfg _ | .clrsts => none

/-- The error the signals of one step raise: decoding first, then the command; nothing under reset and in an idle
step (R77, R82, R94). -/
def stimulusError (x : Stimulus) (s : State) : Option ErrorCause :=
  if x.rst then none
  else if x.cmdValid then
    match decode x.cmd with
    | .ok i => commandError i s
    | .error _ => some .illegalCommand
  else none

/-- The error the next step raises. -/
def State.nextError (s : State) : Option ErrorCause :=
  match s.inputs with
  | [] => none
  | x :: _ => stimulusError x s

/-- The next step misuses nothing: what 93 rows 2.4 to 2.6 ask of a program. -/
def State.SafeStep (s : State) : Prop := s.nextError = none

/-- The first `n` steps are safe. -/
def State.SafeRun : Nat → State → Prop
  | 0, _ => True
  | n + 1, s => s.SafeStep ∧ ∀ t, step s = .next t → State.SafeRun n t

/-- NORM_OUT is a normalized sample, not a placeholder (R28, R99). -/
def State.ResultMeaningful (s : State) : Prop := s.flag .outValid = true

/-- A command that leaves the active calibration alone whatever the state: every one but COMMIT (R63). -/
def commandKeepsCalibration : Instr → Bool
  | .commit => false
  | .nop | .wrmin _ | .wrmax _ | .wrcfg _ | .norm _ | .clrsts => true

/-- A step that is neither a reset nor a COMMIT (R63, R97). -/
def Stimulus.keepsCalibration (x : Stimulus) : Bool :=
  !x.rst && (!x.cmdValid ||
    match decode x.cmd with
    | .ok i => commandKeepsCalibration i
    | .error _ => true)

end Sys2Proof.Machine
end

