-- ==== Sys2Proof/Certificates/Slice0/Obligations.lean ====
section
/-! DEFINITION. The statements for the provers: what the numbered rules say of commands, steps and the read port. -/

open Sys2Proof Sys2Proof.Machine

/-! ## Reset and parameters -/

/-- R33, R94: a step with `rst = 1` makes every register 0x0000, whatever else is driven; the parameter registers
keep their hardwired values. -/
def Obligations.ResetStepZeroesEveryRegister : Prop :=
  ∀ (s : State) (x : Stimulus) (rest : List Stimulus), s.inputs = x :: rest → x.rst = true →
    ∃ t, step s = .next t ∧ t.inputs = rest ∧
      t.calMin = 0x0000#16 ∧ t.calMax = 0x0000#16 ∧ t.cfg = 0x0000#16 ∧
      t.shMin = 0x0000#16 ∧ t.shMax = 0x0000#16 ∧ t.shCfg = 0x0000#16 ∧
      t.normOut = 0x0000#16 ∧ t.lastRaw = 0x0000#16 ∧ t.status = 0x0000#16 ∧ t.errO = false ∧
      (t.readPort 0x9#4).toNat = Config.pDeadband ∧ t.readPort 0xA#4 = 0x0100#16 ∧
      (t.readPort 0xB#4).toNat = Config.pNoise

/-- R93: power-up is a reset, so the state before the first step has every register 0x0000. -/
def Obligations.PowerUpStateIsTheResetState : Prop :=
  State.reset.calMin = 0x0000#16 ∧ State.reset.calMax = 0x0000#16 ∧ State.reset.cfg = 0x0000#16 ∧
  State.reset.shMin = 0x0000#16 ∧ State.reset.shMax = 0x0000#16 ∧ State.reset.shCfg = 0x0000#16 ∧
  State.reset.normOut = 0x0000#16 ∧ State.reset.lastRaw = 0x0000#16 ∧ State.reset.status = 0x0000#16 ∧
  State.reset.flag .calValid = false ∧ State.reset.errO = false

/-- R7: the legal ranges of the two parameters without a value; the model takes them as open constants (log entry 2). -/
def Obligations.ParametersAreInTheirLegalRange : Prop :=
  1 ≤ Config.pDeadband ∧ Config.pDeadband ≤ 127 ∧ Config.pNoise < Config.pDeadband

/-! ## Encoding -/

/-- R49 to R56: decoding and encoding are inverse to each other, so each legal word is one command and each command,
with every operand value, is one word. -/
def Obligations.DecodeAndEncodeAreInverse : Prop :=
  (∀ i : Instr, i.wellFormed = true ∧ decode (encode i) = .ok i) ∧
  (∀ (w : CmdWord) (i : Instr), decode w = .ok i → encode i = w)

/-- R56: the decoding map, written on the number of the word. -/
def Obligations.DecodeIsTheMapOfTheSpec : Prop :=
  ∀ w : CmdWord,
    (decode w).toOption =
      if w.toNat / 2 ^ 20 ≠ 0 then none
      else
        let p := w.toNat % 2 ^ 16
        match w.toNat / 2 ^ 16 % 16 with
        | 0x0 => if p = 0 then some .nop else none
        | 0x1 => some (.wrmin (BitVec.ofNat 16 p))
        | 0x2 => some (.wrmax (BitVec.ofNat 16 p))
        | 0x3 => if p / 2 = 0 then some (.wrcfg (p % 2 == 1)) else none
        | 0x4 => if p = 0 then some .commit else none
        | 0x5 => some (.norm (BitVec.ofNat 16 p))
        | 0x6 => if p = 0 then some .clrsts else none
        | _ => none

/-- R51: a word is command X exactly when `(w & mask_X) == match_X`, its operand being the free bits of the row; opcodes
0x7..0xF are reserved, a word that no row matches is illegal, and no two rows match one word. -/
def Obligations.MatchAndMaskDecideTheCommand : Prop :=
  ∀ w : CmdWord,
    (w &&& 0xFFFFFFFF#32 = 0x00000000#32 ↔ decode w = .ok .nop) ∧
    (w &&& 0xFFFF0000#32 = 0x00010000#32 ↔ decode w = .ok (.wrmin (w.extractLsb' 0 16))) ∧
    (w &&& 0xFFFF0000#32 = 0x00020000#32 ↔ decode w = .ok (.wrmax (w.extractLsb' 0 16))) ∧
    (w &&& 0xFFFFFFFE#32 = 0x00030000#32 ↔ decode w = .ok (.wrcfg (w.getLsbD 0))) ∧
    (w &&& 0xFFFFFFFF#32 = 0x00040000#32 ↔ decode w = .ok .commit) ∧
    (w &&& 0xFFFF0000#32 = 0x00050000#32 ↔ decode w = .ok (.norm (w.extractLsb' 0 16))) ∧
    (w &&& 0xFFFFFFFF#32 = 0x00060000#32 ↔ decode w = .ok .clrsts) ∧
    (0x7#4 ≤ w.extractLsb' 16 4 → ∃ e, decode w = .error e) ∧
    ((∀ r ∈ opTable, r.hits w = false) ↔ ∃ e, decode w = .error e) ∧
    (∀ r ∈ opTable, ∀ q ∈ opTable, r.hits w = true → q.hits w = true → r = q)

/-- R50, R53, R54: the three conditions under which a word is illegal. -/
def Obligations.IllegalWordsAreThoseOfTheThreeConditions : Prop :=
  ∀ w : CmdWord,
    ((∃ e, decode w = .error e) ↔
      w.extractLsb' 20 12 ≠ 0#12 ∨
      0x7#4 ≤ w.extractLsb' 16 4 ∨
      ((w.extractLsb' 16 4 = 0x0#4 ∨ w.extractLsb' 16 4 = 0x4#4 ∨ w.extractLsb' 16 4 = 0x6#4) ∧
        w.extractLsb' 0 16 ≠ 0#16) ∨
      (w.extractLsb' 16 4 = 0x3#4 ∧ w.extractLsb' 1 15 ≠ 0#15)) ∧
    ((∃ e, decode w = .error e) ↔ legalWord w = false)

/-- R54: of the 2^32 words, 196613 are legal. -/
def Obligations.LegalWordCountIs196613 : Prop :=
  Nat.card { w : CmdWord // ∃ i, decode w = .ok i } = 196613

/-- R40: a command carried as bytes is little-endian, byte 0 holding bits 7:0, and decoding reads back the command
and leaves the bytes after it. That fewer than four bytes are refused is the model's choice (log entry 8). -/
def Obligations.ByteTransportIsLittleEndian : Prop :=
  (∀ b0 b1 b2 b3 : Byte,
    (wordOfBytes b0 b1 b2 b3).toNat = b0.toNat + 2 ^ 8 * b1.toNat + 2 ^ 16 * b2.toNat + 2 ^ 24 * b3.toNat) ∧
  (∀ (i : Instr) (rest : List Byte), decodeBytes (encodeBytes i ++ rest) = .ok (i, rest)) ∧
  (∀ bytes : List Byte, bytes.length < 4 → decodeBytes bytes = .error .truncated)

/-- The decoding vectors of 95 section 2 and the examples of R57: a sanity statement. -/
def Obligations.SpecWordsDecodeAsListed : Prop :=
  decode 0x00000000#32 = .ok .nop ∧ decode 0x00000001#32 = .error .reservedPayload ∧
  decode 0x0001F800#32 = .ok (.wrmin 0xF800#16) ∧ decode 0x00020800#32 = .ok (.wrmax 0x0800#16) ∧
  decode 0x00030000#32 = .ok (.wrcfg false) ∧ decode 0x00030001#32 = .ok (.wrcfg true) ∧
  decode 0x00030002#32 = .error .reservedPayload ∧ decode 0x00040000#32 = .ok .commit ∧
  decode 0x00058000#32 = .ok (.norm 0x8000#16) ∧ decode 0x00060000#32 = .ok .clrsts ∧
  decode 0x00060001#32 = .error .reservedPayload ∧ decode 0x000F0000#32 = .error .reservedOpcode ∧
  decode 0x80050000#32 = .error .reservedHigh

/-! ## The step -/

/-- R34, R44: a presented word that decodes to `i` makes the step run `i`, on the state whose driven signals have moved
on by one step. -/
def Obligations.StepRunsTheDecodedCommand : Prop :=
  ∀ (s : State) (x : Stimulus) (rest : List Stimulus) (i : Instr),
    s.inputs = x :: rest → x.rst = false → x.cmdValid = true → decode x.cmd = .ok i →
    step s = exec i { s with inputs := rest }

/-- R15, R34: a table word placed as the next presented word is what the very next step runs, and nothing else of the
state is different. How a word comes to be presented is the model's choice (log entry 1). -/
def Obligations.PlacedWordIsTheNextCommand : Prop :=
  ∀ (s : State) (i : Instr), step (s.withFetchWord 32 (encode i).toNat) = exec i s

/-- R75: an idle step changes no state, and the outputs keep showing the same values. -/
def Obligations.IdleStepChangesNoState : Prop :=
  ∀ (s : State) (x : Stimulus) (rest : List Stimulus),
    s.inputs = x :: rest → x.cmdValid = false → x.rst = false →
    step s = .next { s with inputs := rest } ∧
    ∀ a, ({ s with inputs := rest } : State).outputs a = s.outputs a

/-- R34, R76, R101: every step, of every state and whatever is driven, completes with a next state and uses up the
signals of one step; no word stalls the block and no error stops it. That nothing more driven is an idle step is the
model's choice (log entry 1). -/
def Obligations.EveryStepCompletes : Prop :=
  ∀ s : State, ∃ t, step s = .next t ∧ t.inputs = s.inputs.tail

/-- R78: an illegal word sets STATUS.ILLEGAL and changes nothing else. -/
def Obligations.IllegalWordOnlySetsIllegal : Prop :=
  ∀ (s : State) (x : Stimulus) (rest : List Stimulus),
    s.inputs = x :: rest → x.rst = false → x.cmdValid = true → (∃ e, decode x.cmd = .error e) →
    ∃ t, step s = .next t ∧ t = { s with inputs := rest, status := t.status } ∧
      t.flag .illegal = true ∧ ∀ n, n ≠ 7 → t.status.getLsbD n = s.status.getLsbD n

/-- R38, R94, R103: `rd_addr` never changes what a step does, `cmd` is ignored while `cmd_valid = 0`, and `cmd` and
`cmd_valid` are ignored while `rst = 1`. -/
def Obligations.IgnoredSignalsDoNotMatter : Prop :=
  ∀ (s : State) (rest : List Stimulus) (r v v' : Bool) (w w' : CmdWord) (a a' : ReadIndex),
    (step { s with inputs := ⟨r, v, w, a⟩ :: rest } = step { s with inputs := ⟨r, v, w, a'⟩ :: rest }) ∧
    (step { s with inputs := ⟨r, false, w, a⟩ :: rest } = step { s with inputs := ⟨r, false, w', a⟩ :: rest }) ∧
    (step { s with inputs := ⟨true, v, w, a⟩ :: rest } = step { s with inputs := ⟨true, v', w', a⟩ :: rest })

/-! ## The commands -/

/-- R73: NOP writes no state, and no other word of opcode 0 is a command. -/
def Obligations.NopWritesNoState : Prop :=
  (∀ s, exec .nop s = .next s) ∧ decode 0x00000000#32 = .ok .nop ∧
  ∀ p : Half, p ≠ 0#16 → ∃ e, decode (p.setWidth 32) = .error e

/-- R59: WRMIN writes SH_MIN and nothing else, for each of the 65536 operands. -/
def Obligations.WrminWritesOnlyTheShadowMinimum : Prop :=
  ∀ (imm : Half) (s : State),
    decode (0x00010000#32 ||| imm.setWidth 32) = .ok (.wrmin imm) ∧
    exec (.wrmin imm) s = .next { s with shMin := imm }

/-- R60: WRMAX writes SH_MAX and nothing else, for each of the 65536 operands. -/
def Obligations.WrmaxWritesOnlyTheShadowMaximum : Prop :=
  ∀ (imm : Half) (s : State),
    decode (0x00020000#32 ||| imm.setWidth 32) = .ok (.wrmax imm) ∧
    exec (.wrmax imm) s = .next { s with shMax := imm }

/-- R61: WRCFG writes the zero-extended `rev` bit to SH_CFG and nothing else; a word with a bit of 15:1 set is
illegal. -/
def Obligations.WrcfgWritesOnlyTheShadowConfiguration : Prop :=
  (∀ (rev : Bool) (s : State),
    decode (0x00030000#32 ||| (BitVec.ofBool rev).setWidth 32) = .ok (.wrcfg rev) ∧
    exec (.wrcfg rev) s = .next { s with shCfg := (BitVec.ofBool rev).setWidth 16 }) ∧
  ∀ p : Half, p.extractLsb' 1 15 ≠ 0#15 → ∃ e, decode (0x00030000#32 ||| p.setWidth 32) = .error e

/-- R62: only the word 0x00040000 is COMMIT. With different pending bounds the three shadow registers are copied and
CAL_VALID is set; with equal ones only COMMIT_REJ is set; nothing else changes. -/
def Obligations.CommitInstallsOrRejectsThePendingCalibration : Prop :=
  (∀ w, decode w = .ok .commit ↔ w = 0x00040000#32) ∧
  ∀ s : State,
    (s.shMin ≠ s.shMax →
      ∃ t, exec .commit s = .next t ∧
        t = { s with calMin := s.shMin, calMax := s.shMax, cfg := s.shCfg, status := t.status } ∧
        t.flag .calValid = true ∧ ∀ n, n ≠ 1 → t.status.getLsbD n = s.status.getLsbD n) ∧
    (s.shMin = s.shMax →
      ∃ t, exec .commit s = .next t ∧ t = { s with status := t.status } ∧
        t.flag .commitRej = true ∧ ∀ n, n ≠ 6 → t.status.getLsbD n = s.status.getLsbD n)

/-- R80: with equal pending bounds COMMIT sets COMMIT_REJ, and CAL_MIN, CAL_MAX, CFG and CAL_VALID are unchanged, in
the step that presents it. -/
def Obligations.CommitOfEqualBoundsIsRejectedInItsStep : Prop :=
  ∀ s : State, s.presents .commit → s.shMin = s.shMax →
    ∃ t, step s = .next t ∧ t.flag .commitRej = true ∧ t.calMin = s.calMin ∧ t.calMax = s.calMax ∧ t.cfg = s.cfg ∧
      t.flag .calValid = s.flag .calValid

/-- R64, R65, R66: each word 0x0005xxxx is a NORM. With CAL_VALID = 1 it stores the raw pattern, the value that the
clamp, the floor of the linear map and the deadband give, and the four status bits; with CAL_VALID = 0 it stores the raw
pattern and 0, raises CAL_ERR and clears the four bits; nothing else changes. The premise on the bounds is the invariant
of R32. -/
def Obligations.NormComputesTheNormalizedValue : Prop :=
  ∀ (imm : Half) (s : State),
    decode (0x00050000#32 ||| imm.setWidth 32) = .ok (.norm imm) ∧
    (s.flag .calValid = true → s.calMin ≠ s.calMax →
      let lo := if s.cfg.getLsbD 0 then s.calMax.toInt else s.calMin.toInt
      let hi := if s.cfg.getLsbD 0 then s.calMin.toInt else s.calMax.toInt
      let raw := imm.toInt
      let c := max (min lo hi) (min raw (max lo hi))
      let v := (c - lo).natAbs * 256 / (hi - lo).natAbs
      ∃ t, exec (.norm imm) s = .next t ∧
        t = { s with lastRaw := imm, normOut := t.normOut, status := t.status } ∧
        t.normOut.toNat =
          (if v ≤ Config.pDeadband then 0 else if 256 - Config.pDeadband ≤ v then 256 else v) ∧
        t.flag .outValid = true ∧
        (t.flag .dbLo = true ↔ v ≤ Config.pDeadband) ∧
        (t.flag .dbHi = true ↔ 256 - Config.pDeadband ≤ v) ∧
        (t.flag .clip = true ↔ raw < min lo hi ∨ max lo hi < raw) ∧
        ∀ n, n ≠ 0 → n ≠ 2 → n ≠ 3 → n ≠ 4 → t.status.getLsbD n = s.status.getLsbD n) ∧
    (s.flag .calValid = false →
      ∃ t, exec (.norm imm) s = .next t ∧
        t = { s with lastRaw := imm, normOut := 0x0000#16, status := t.status } ∧
        t.flag .calErr = true ∧ t.flag .outValid = false ∧ t.flag .dbLo = false ∧ t.flag .dbHi = false ∧
        t.flag .clip = false ∧
        ∀ n, n = 1 ∨ 6 ≤ n → t.status.getLsbD n = s.status.getLsbD n)

/-- R79: a step that presents a NORM while CAL_VALID = 0 raises CAL_ERR; NORM_OUT, OUT_VALID, DB_LO, DB_HI and CLIP are
0, and LAST_RAW gets the sample. -/
def Obligations.UncalibratedNormRaisesCalErrInItsStep : Prop :=
  ∀ (imm : Half) (s : State), s.presents (.norm imm) → s.flag .calValid = false →
    ∃ t, step s = .next t ∧ t.flag .calErr = true ∧ t.normOut = 0x0000#16 ∧ t.flag .outValid = false ∧
      t.flag .dbLo = false ∧ t.flag .dbHi = false ∧ t.flag .clip = false ∧ t.lastRaw = imm

/-- R74: CLRSTS clears the three sticky bits and changes nothing else; no other word of opcode 6 is a command. -/
def Obligations.ClrstsClearsOnlyTheStickyBits : Prop :=
  (∀ s : State,
    ∃ t, exec .clrsts s = .next t ∧ t = { s with status := t.status } ∧ t.errO = false ∧
      t.flag .calErr = false ∧ t.flag .commitRej = false ∧ t.flag .illegal = false ∧
      ∀ n, n ≠ 5 → n ≠ 6 → n ≠ 7 → t.status.getLsbD n = s.status.getLsbD n) ∧
  decode 0x00060000#32 = .ok .clrsts ∧
  ∀ p : Half, p ≠ 0#16 → ∃ e, decode (0x00060000#32 ||| p.setWidth 32) = .error e

/-! ## Who writes what -/

/-- R14, R16 to R23, R63: over one step of any state, each register other than STATUS changes only by the commands its
rule names, or by reset. -/
def Obligations.RegistersChangeOnlyByTheirCommands : Prop :=
  ∀ s t : State, step s = .next t →
    (t.calMin ≠ s.calMin ∨ t.calMax ≠ s.calMax ∨ t.cfg ≠ s.cfg →
      s.resets ∨ (s.presents .commit ∧ s.shMin ≠ s.shMax)) ∧
    (t.shMin ≠ s.shMin → s.resets ∨ ∃ imm, s.presents (.wrmin imm)) ∧
    (t.shMax ≠ s.shMax → s.resets ∨ ∃ imm, s.presents (.wrmax imm)) ∧
    (t.shCfg ≠ s.shCfg → s.resets ∨ ∃ rev, s.presents (.wrcfg rev)) ∧
    (t.normOut ≠ s.normOut ∨ t.lastRaw ≠ s.lastRaw → s.resets ∨ ∃ imm, s.presents (.norm imm))

/-- R63: the calibration family writes none of NORM_OUT, LAST_RAW, OUT_VALID, DB_LO, DB_HI, CLIP, CAL_ERR and
ILLEGAL, nor a reserved bit of STATUS, and each of its commands completes. -/
def Obligations.CalibrationFamilyKeepsTheResult : Prop :=
  ∀ (i : Instr) (s : State),
    (i = .commit ∨ (∃ imm, i = .wrmin imm) ∨ (∃ imm, i = .wrmax imm) ∨ (∃ rev, i = .wrcfg rev)) →
    ∃ t, exec i s = .next t ∧ t.normOut = s.normOut ∧ t.lastRaw = s.lastRaw ∧
      (∀ n, n ≠ 1 → n ≠ 6 → t.status.getLsbD n = s.status.getLsbD n) ∧
      (i ≠ .commit → t.status = s.status ∧ t.calMin = s.calMin ∧ t.calMax = s.calMax ∧ t.cfg = s.cfg)

/-- R27, R28, R30: over one step, OUT_VALID, DB_LO, DB_HI and CLIP are those of the NORM presented (0 where it found
CAL_VALID = 0), 0 after reset, and unchanged otherwise; the reserved bits 15:8 are never set. -/
def Obligations.ResultBitsBelongToTheLastNorm : Prop :=
  ∀ s t : State, step s = .next t →
    (∀ imm, s.presents (.norm imm) → s.flag .calValid = true →
      t.flag .outValid = true ∧ t.flag .dbLo = (s.normResult Config.pDeadband imm).dbLo ∧
      t.flag .dbHi = (s.normResult Config.pDeadband imm).dbHi ∧
      t.flag .clip = (s.normResult Config.pDeadband imm).clip) ∧
    (∀ imm, s.presents (.norm imm) → s.flag .calValid = false →
      t.flag .outValid = false ∧ t.flag .dbLo = false ∧ t.flag .dbHi = false ∧ t.flag .clip = false) ∧
    (s.resets → ∀ n, t.status.getLsbD n = false) ∧
    (¬s.resets → (∀ imm, ¬s.presents (.norm imm)) →
      t.flag .outValid = s.flag .outValid ∧ t.flag .dbLo = s.flag .dbLo ∧ t.flag .dbHi = s.flag .dbHi ∧
      t.flag .clip = s.flag .clip) ∧
    (∀ n, 8 ≤ n → t.status.getLsbD n = true → s.status.getLsbD n = true)

/-- R29: CAL_VALID is set by an accepted COMMIT and by nothing else, and stays 1 until reset. -/
def Obligations.CalValidIsSetByCommitAndClearedByReset : Prop :=
  ∀ s t : State, step s = .next t →
    (t.flag .calValid = true ↔
      (s.flag .calValid = true ∧ ¬s.resets) ∨ (s.presents .commit ∧ s.shMin ≠ s.shMax))

/-- R31, R77 to R80: each sticky bit is 1 after a step exactly when its cause happened in the step, or it was 1 and the
step was neither CLRSTS nor reset. -/
def Obligations.StickyBitsFollowTheirCauses : Prop :=
  ∀ s t : State, step s = .next t →
    (t.flag .calErr = true ↔
      ((∃ imm, s.presents (.norm imm)) ∧ s.flag .calValid = false) ∨
      (s.flag .calErr = true ∧ ¬s.presents .clrsts ∧ ¬s.resets)) ∧
    (t.flag .commitRej = true ↔
      (s.presents .commit ∧ s.shMin = s.shMax) ∨
      (s.flag .commitRej = true ∧ ¬s.presents .clrsts ∧ ¬s.resets)) ∧
    (t.flag .illegal = true ↔
      s.presentsIllegal ∨ (s.flag .illegal = true ∧ ¬s.presents .clrsts ∧ ¬s.resets))

/-- R82: at most one error bit is set per step. -/
def Obligations.AtMostOneErrorBitIsSetPerStep : Prop :=
  ∀ (s t : State) (e f : ErrorCause), step s = .next t →
    s.flag e.bit = false → t.flag e.bit = true → s.flag f.bit = false → t.flag f.bit = true → e = f

/-- R84: `err_o` is the OR of the three sticky bits; it is high after each step that raises an error, rises in no other
step, and falls by CLRSTS or reset and by nothing else. -/
def Obligations.ErrOutputHoldsUntilAcknowledged : Prop :=
  (∀ s : State, s.errO = true ↔
    s.status.getLsbD 5 = true ∨ s.status.getLsbD 6 = true ∨ s.status.getLsbD 7 = true) ∧
  ∀ s t : State, step s = .next t →
    (s.errO = true → t.errO = false → s.presents .clrsts ∨ s.resets) ∧
    (s.presents .clrsts ∨ s.resets → t.errO = false) ∧
    (s.nextError ≠ none → t.errO = true) ∧
    (s.errO = false → t.errO = true → s.nextError ≠ none)

/-! ## Invariants -/

/-- The invariant of R32 holds after reset, whatever the host drives. -/
def Obligations.ResetMeetsTheInvariant : Prop :=
  ∀ inputs : List Stimulus, State.Inv { State.reset with inputs := inputs }

/-- R32: every step, of every state that meets the invariant and whatever is driven, keeps it. -/
def Obligations.EveryStepKeepsTheInvariant : Prop :=
  ∀ s t : State, s.Inv → step s = .next t → t.Inv

/-- R32: what every state reachable from reset satisfies. -/
def Obligations.ReachableStatesMeetTheInvariant : Prop :=
  ∀ s : State, Reachable s →
    (s.status.getLsbD 1 = true → s.calMin ≠ s.calMax) ∧
    s.normOut.toNat ≤ 256 ∧
    s.cfg.extractLsb' 1 15 = 0#15 ∧ s.shCfg.extractLsb' 1 15 = 0#15 ∧ s.status.extractLsb' 8 8 = 0#8 ∧
    ¬(s.status.getLsbD 2 = true ∧ s.status.getLsbD 3 = true) ∧
    (s.status.getLsbD 0 = true → s.status.getLsbD 1 = true)

/-- R33, R72, R99: as long as no COMMIT has succeeded, the active calibration is still the reset one and NORM_OUT is
the placeholder 0. -/
def Obligations.UncalibratedBlockHoldsTheSafeValue : Prop :=
  ∀ s : State, Reachable s → s.flag .calValid = false →
    s.normOut = 0x0000#16 ∧ s.calMin = 0x0000#16 ∧ s.calMax = 0x0000#16 ∧ s.cfg = 0x0000#16 ∧
    s.flag .outValid = false

/-! ## Calibration is never torn -/

/-- R63, R97: NORM reads only CAL_MIN, CAL_MAX, CFG and CAL_VALID: two states that agree on these give the same
result, sample and result bits, whatever their shadow registers hold. -/
def Obligations.NormNeverReadsTheShadows : Prop :=
  ∀ (imm : Half) (s u s' u' : State),
    s.calMin = u.calMin → s.calMax = u.calMax → s.cfg = u.cfg → s.flag .calValid = u.flag .calValid →
    exec (.norm imm) s = .next s' → exec (.norm imm) u = .next u' →
    s'.normOut = u'.normOut ∧ s'.lastRaw = u'.lastRaw ∧ s'.flag .outValid = u'.flag .outValid ∧
    s'.flag .dbLo = u'.flag .dbLo ∧ s'.flag .dbHi = u'.flag .dbHi ∧ s'.flag .clip = u'.flag .clip

/-- R45, R63: over any number of steps with no COMMIT and no reset, whatever shadow writes, samples and illegal words
they hold, the active calibration stays the same, so a NORM after them gives what it would have given before. -/
def Obligations.OneCalibrationBetweenCommits : Prop :=
  ∀ (n : Nat) (s t : State), Sys2Proof.core.run n s = .next t →
    (∀ x ∈ s.inputs.take n, x.keepsCalibration = true) →
    t.calMin = s.calMin ∧ t.calMax = s.calMax ∧ t.cfg = s.cfg ∧ t.flag .calValid = s.flag .calValid ∧
    ∀ (imm : Half) (s' t' : State), exec (.norm imm) s = .next s' → exec (.norm imm) t = .next t' →
      t'.normOut = s'.normOut

/-- R58, R96: the pseudo-instruction CAL installs its bounds and reverse bit in four steps from any state; with equal
bounds it is rejected and the active calibration stays. -/
def Obligations.CalPseudoInstructionInstallsTheBounds : Prop :=
  ∀ (lo hi : AsmImm) (rev : Nat) (s : State) (words : List CmdWord) (rest : List Stimulus),
    assemble (.cal lo hi (some rev)) = some words → s.inputs = words.map Stimulus.command ++ rest →
    ∃ t, Sys2Proof.core.run 4 s = .next t ∧ t.inputs = rest ∧
      t.shMin = asmImmBits lo ∧ t.shMax = asmImmBits hi ∧ t.shCfg.toNat = rev ∧
      (asmImmBits lo ≠ asmImmBits hi →
        t.calMin = asmImmBits lo ∧ t.calMax = asmImmBits hi ∧ t.cfg.toNat = rev ∧ t.flag .calValid = true ∧
        t.flag .commitRej = s.flag .commitRej) ∧
      (asmImmBits lo = asmImmBits hi →
        t.calMin = s.calMin ∧ t.calMax = s.calMax ∧ t.cfg = s.cfg ∧ t.flag .calValid = s.flag .calValid ∧
        t.flag .commitRej = true)

/-! ## The normalization -/

/-- R68: the scaled value is the floor of 256 times the exact fraction of the way from `lo` to `hi`, and both ends are
exact. -/
def Obligations.ScaleIsTheFloorOfTheExactFraction : Prop :=
  ∀ c lo hi : Int, lo ≠ hi → min lo hi ≤ c → c ≤ max lo hi →
    (scale c lo hi : Int) = ⌊((c - lo : Int) : ℚ) / ((hi - lo : Int) : ℚ) * 256⌋ ∧
    scale c lo hi ≤ 256 ∧ scale lo lo hi = 0 ∧ scale hi lo hi = 256

/-- R69: no intermediate value leaves the range of the table, and a datapath of any width of at least 24 bits gives the
same scaled value as unbounded integers, for all int16 operands. -/
def Obligations.DatapathOf24BitsOrMoreAgrees : Prop :=
  ∀ (n : Nat) (c lo hi : Half), 24 ≤ n →
    lo ≠ hi → min lo.toInt hi.toInt ≤ c.toInt → c.toInt ≤ max lo.toInt hi.toInt →
    (scaleBits n c lo hi).toNat = scale c.toInt lo.toInt hi.toInt ∧
    (c.toInt - lo.toInt).natAbs ≤ 65535 ∧
    1 ≤ (hi.toInt - lo.toInt).natAbs ∧ (hi.toInt - lo.toInt).natAbs ≤ 65535 ∧
    (c.toInt - lo.toInt).natAbs * 256 ≤ 16776960 ∧ scale c.toInt lo.toInt hi.toInt ≤ 256 ∧
    ∀ db, (deadband (scale c.toInt lo.toInt hi.toInt) db).1 ≤ 256

/-- R67: the deadband, for every legal width, and its two flags exclude each other. -/
def Obligations.DeadbandClampsBothEnds : Prop :=
  ∀ s db : Nat, 1 ≤ db → db ≤ 127 →
    (s ≤ db → deadband s db = (0, true, false)) ∧
    (256 - db ≤ s → deadband s db = (256, false, true)) ∧
    (db < s → s < 256 - db → deadband s db = (s, false, false))

/-- R70: samples at and beyond either effective bound, and the midpoint scenario, from every calibrated state. The
premise on the bounds is the invariant of R32. -/
def Obligations.NormEndpointsAreExact : Prop :=
  ∀ (imm : Half) (s t : State), s.flag .calValid = true → s.calMin ≠ s.calMax → exec (.norm imm) s = .next t →
    let lo := if s.cfg.getLsbD 0 then s.calMax.toInt else s.calMin.toInt
    let hi := if s.cfg.getLsbD 0 then s.calMin.toInt else s.calMax.toInt
    (imm.toInt = lo → t.normOut = 0#16 ∧ t.flag .dbLo = true ∧ t.flag .clip = false) ∧
    (imm.toInt = hi → t.normOut = 256#16 ∧ t.flag .dbHi = true ∧ t.flag .clip = false) ∧
    ((imm.toInt < lo ∧ lo < hi) ∨ (hi < lo ∧ lo < imm.toInt) →
      t.normOut = 0#16 ∧ t.flag .dbLo = true ∧ t.flag .clip = true) ∧
    ((lo < hi ∧ hi < imm.toInt) ∨ (imm.toInt < hi ∧ hi < lo) →
      t.normOut = 256#16 ∧ t.flag .dbHi = true ∧ t.flag .clip = true) ∧
    (s.calMin.toInt = -2048 → s.calMax.toInt = 2048 → s.cfg.getLsbD 0 = false → imm = 0#16 →
      t.normOut = 128#16 ∧ t.flag .dbLo = false ∧ t.flag .dbHi = false ∧ t.flag .clip = false)

/-- R71, with the inclusive edges of R67: NORM_OUT is in 0..256, takes no value in 1..P_DEADBAND and none in
(256 - P_DEADBAND)..255, from every state. Without calibration the value is the placeholder 0 of R72. In a state with
CAL_VALID = 1 and equal bounds, which R32 rules out, the scaled value is the model's free value and the deadband is
still applied to it: the model's choice (log entry 5). -/
def Obligations.NormOutputAvoidsTheDeadbands : Prop :=
  ∀ (imm : Half) (s t : State), exec (.norm imm) s = .next t →
    t.normOut.toNat ≤ 256 ∧
    ¬(1 ≤ t.normOut.toNat ∧ t.normOut.toNat ≤ Config.pDeadband) ∧
    ¬(256 - Config.pDeadband ≤ t.normOut.toNat ∧ t.normOut.toNat ≤ 255) ∧
    (s.flag .calValid = false → t.normOut = 0x0000#16)

/-- R71: for a fixed calibration, the result never decreases as the sample moves from `lo` toward `hi`. The premise on
the bounds is the invariant of R32. -/
def Obligations.NormIsMonotoneOverTriggerTravel : Prop :=
  ∀ (p q : Half) (s t u : State), s.flag .calValid = true → s.calMin ≠ s.calMax →
    exec (.norm p) s = .next t → exec (.norm q) s = .next u →
    let lo := if s.cfg.getLsbD 0 then s.calMax.toInt else s.calMin.toInt
    let hi := if s.cfg.getLsbD 0 then s.calMin.toInt else s.calMax.toInt
    (lo < hi ∧ p.toInt ≤ q.toInt) ∨ (hi < lo ∧ q.toInt ≤ p.toInt) →
    t.normOut.toNat ≤ u.normOut.toNat

/-- R65: with REV = 1 the bounds swap roles: the result is that of the exchanged bounds with REV = 0. -/
def Obligations.ReverseSwapsTheBounds : Prop :=
  ∀ (imm : Half) (s u s' u' : State),
    s.cfg.getLsbD 0 = true → u.cfg.getLsbD 0 = false → s.calMin = u.calMax → s.calMax = u.calMin →
    s.flag .calValid = u.flag .calValid →
    exec (.norm imm) s = .next s' → exec (.norm imm) u = .next u' →
    s'.normOut = u'.normOut ∧ s'.flag .dbLo = u'.flag .dbLo ∧ s'.flag .dbHi = u'.flag .dbHi ∧
    s'.flag .clip = u'.flag .clip

/-! ## The read port and the outputs -/

/-- R37, R39: the register read map; the reserved indexes read as 0x0000. -/
def Obligations.ReadPortFollowsTheMap : Prop :=
  ∀ s : State,
    s.readPort 0x0#4 = s.status ∧ s.readPort 0x1#4 = s.normOut ∧ s.readPort 0x2#4 = s.lastRaw ∧
    s.readPort 0x3#4 = s.calMin ∧ s.readPort 0x4#4 = s.calMax ∧ s.readPort 0x5#4 = s.cfg ∧
    s.readPort 0x6#4 = s.shMin ∧ s.readPort 0x7#4 = s.shMax ∧ s.readPort 0x8#4 = s.shCfg ∧
    (s.readPort 0x9#4).toNat = Config.pDeadband ∧ (s.readPort 0xA#4).toNat = 256 ∧
    (s.readPort 0xB#4).toNat = Config.pNoise ∧ ∀ a : ReadIndex, 0xC#4 ≤ a → s.readPort a = 0x0000#16

/-- R35: every state bit is visible on the read port: states that read alike at every index have the same registers. -/
def Obligations.EveryStateBitIsVisible : Prop :=
  ∀ s t : State, (∀ a, s.readPort a = t.readPort a) ↔ { s with inputs := t.inputs } = t

/-- R34: `norm_out`, `out_valid` and `err_o` are copies of state, at whatever index is read. -/
def Obligations.OutputsAreCopiesOfState : Prop :=
  ∀ (s : State) (a : ReadIndex),
    (s.outputs a).rdData = s.readPort a ∧ (s.outputs a).normOut = s.normOut ∧
    (s.outputs a).outValid = s.status.getLsbD 0 ∧
    (s.outputs a).errO = (s.status.getLsbD 5 || s.status.getLsbD 6 || s.status.getLsbD 7)

/-- R38, R98: during a step the host sees the state from before it, and the effect of the step from the next step on. -/
def Obligations.EffectsAreSeenFromTheNextStepOn : Prop :=
  ∀ (s t : State) (x y : Stimulus) (rest : List Stimulus), s.inputs = x :: y :: rest → step s = .next t →
    s.observed = some ⟨s.readPort x.rdAddr, s.normOut, s.flag .outValid, s.errO⟩ ∧
    t.observed = some ⟨t.readPort y.rdAddr, t.normOut, t.flag .outValid, t.errO⟩

/-! ## Programs that misuse nothing, and the assembler -/

/-- 93 rows 2.4 to 2.6: a run whose steps are safe never raises `err_o`. -/
def Obligations.SafeRunsNeverRaiseErrOutput : Prop :=
  ∀ (n : Nat) (s t : State), s.errO = false → State.SafeRun n s → Sys2Proof.core.run n s = .next t → t.errO = false

/-- R57: the signed decimal and the hex pattern of each of the 65536 operands are both accepted and spell the same
bits, and a number outside the range is refused. -/
def Obligations.BothSpellingsOfAnImmediateAgree : Prop :=
  (∀ v : Half, assemble (.norm (.dec v.toInt)) = some [encode (.norm v)] ∧
    assemble (.norm (.hex v.toNat)) = some [encode (.norm v)]) ∧
  (∀ n : Int, n < -32768 ∨ 32767 < n → assemble (.norm (.dec n)) = none) ∧
  ∀ n : Nat, 65536 ≤ n → assemble (.norm (.hex n)) = none

/-- The examples of R57 and R58 as text: a sanity statement. Spacing and comments are read by the model's conventions
(log entry 9). -/
def Obligations.AssemblerTextMatchesTheExamples : Prop :=
  assembleText "WRMIN -2048" = some [0x0001F800#32] ∧ assembleText "WRMAX 2048" = some [0x00020800#32] ∧
  assembleText "WRCFG 1" = some [0x00030001#32] ∧ assembleText "commit ; done" = some [0x00040000#32] ∧
  assembleText "NORM 0" = some [0x00050000#32] ∧ assembleText "CLRSTS" = some [0x00060000#32] ∧
  assembleText "Nop" = some [0x00000000#32] ∧ assembleText "NORM 0xFFFF" = assembleText "NORM -1" ∧
  assembleText ".word 0x00070000" = some [0x00070000#32] ∧
  assembleText "CAL -2048, 2048" = some [0x0001F800#32, 0x00020800#32, 0x00030000#32, 0x00040000#32]
end

