-- ==== Sys2Proof/Laws/Config.lean ====
section
/-! SUPPORT. The legal ranges of the build-time parameters (R7): all that is known of them. -/

namespace Sys2Proof.Config

theorem pDeadband_pos : 1 ≤ pDeadband := Nat.le_add_left _ _

theorem pDeadband_le : pDeadband ≤ 127 := deadbandIndex.isLt

theorem pNoise_lt : pNoise < pDeadband := noiseIndex.isLt

end Sys2Proof.Config
end

