-- ==== Sys2Proof/Laws/Decode.lean ====
section
/-! SUPPORT. The three fields of the command format (R49). -/

namespace Sys2Proof

/-- Every bit of a formatted word (R49). -/
theorem formatWord_getLsbD (op : BitVec 4) (p : Half) (i : Nat) :
    (formatWord op p).getLsbD i =
      if i < 16 then p.getLsbD i else if i < 20 then op.getLsbD (i - 16) else false := by
  show BitVec.getLsbD (w := 12 + 4 + 16) (0#12 ++ op ++ p) i = _
  rw [BitVec.getLsbD_append]
  by_cases h1 : i < 16
  · simp [h1]
  · rw [if_neg h1, if_neg h1]
    show BitVec.getLsbD (w := 12 + 4) (0#12 ++ op) (i - 16) = _
    rw [BitVec.getLsbD_append]
    by_cases h2 : i < 20
    · rw [if_pos h2, if_pos (by omega)]
    · rw [if_neg h2, if_neg (by omega), BitVec.getLsbD_zero]

@[simp] theorem rsvField_formatWord (op : BitVec 4) (p : Half) : rsvField (formatWord op p) = 0#12 := by
  apply BitVec.eq_of_getLsbD_eq
  intro i hi
  simp only [rsvField, BitVec.getLsbD_extractLsb', formatWord_getLsbD]
  simp [show ¬20 + i < 16 by omega]

@[simp] theorem opField_formatWord (op : BitVec 4) (p : Half) : opField (formatWord op p) = op := by
  apply BitVec.eq_of_getLsbD_eq
  intro i hi
  simp only [opField, BitVec.getLsbD_extractLsb', formatWord_getLsbD]
  simp [hi, show 16 + i < 20 by omega]

@[simp] theorem payloadField_formatWord (op : BitVec 4) (p : Half) : payloadField (formatWord op p) = p := by
  apply BitVec.eq_of_getLsbD_eq
  intro i hi
  simp only [payloadField, BitVec.getLsbD_extractLsb', formatWord_getLsbD]
  simp [hi]

/-- A word whose reserved field is 0 is the format of its own fields. -/
theorem formatWord_fields {w : CmdWord} (h : rsvField w = 0#12) :
    formatWord (opField w) (payloadField w) = w := by
  apply BitVec.eq_of_getLsbD_eq
  intro i hi
  rw [formatWord_getLsbD]
  simp only [opField, payloadField, BitVec.getLsbD_extractLsb']
  by_cases h1 : i < 16
  · simp [h1]
  · by_cases h2 : i < 20
    · simp [h1, h2, show i - 16 < 4 by omega, show 16 + (i - 16) = i by omega]
    · have h3 := congrArg (fun v => v.getLsbD (i - 20)) h
      simp only [rsvField, BitVec.getLsbD_extractLsb'] at h3
      rw [show 20 + (i - 20) = i by omega, decide_eq_true (by omega : i - 20 < 12)] at h3
      simpa [h1, h2] using h3.symm

theorem rsvField_toNat (w : CmdWord) : (rsvField w).toNat = w.toNat / 2 ^ 20 := by
  have := w.isLt
  simp [rsvField, BitVec.extractLsb'_toNat, Nat.shiftRight_eq_div_pow]
  omega

theorem opField_toNat (w : CmdWord) : (opField w).toNat = w.toNat / 2 ^ 16 % 16 := by
  simp [opField, BitVec.extractLsb'_toNat, Nat.shiftRight_eq_div_pow]

theorem payloadField_toNat (w : CmdWord) : (payloadField w).toNat = w.toNat % 2 ^ 16 := by
  simp [payloadField, BitVec.extractLsb'_toNat]

theorem formatWord_toNat (op : BitVec 4) (p : Half) : (formatWord op p).toNat = op.toNat * 2 ^ 16 + p.toNat := by
  have h1 := rsvField_toNat (formatWord op p)
  have h2 := opField_toNat (formatWord op p)
  have h3 := payloadField_toNat (formatWord op p)
  rw [rsvField_formatWord] at h1
  rw [opField_formatWord] at h2
  rw [payloadField_formatWord] at h3
  simp only [BitVec.toNat_ofNat] at h1
  omega

end Sys2Proof
end

