-- ==== Sys2Proof/Laws/State.lean ====
section
/-! SUPPORT. Each field after each named update of State, so that no proof unfolds a record update. -/

namespace Sys2Proof.Machine

@[simp] theorem State.calMin_setShMin (s : State) (v : Half) : (s.setShMin v).calMin = s.calMin := rfl
@[simp] theorem State.calMax_setShMin (s : State) (v : Half) : (s.setShMin v).calMax = s.calMax := rfl
@[simp] theorem State.cfg_setShMin (s : State) (v : Half) : (s.setShMin v).cfg = s.cfg := rfl
@[simp] theorem State.shMin_setShMin (s : State) (v : Half) : (s.setShMin v).shMin = v := rfl
@[simp] theorem State.shMax_setShMin (s : State) (v : Half) : (s.setShMin v).shMax = s.shMax := rfl
@[simp] theorem State.shCfg_setShMin (s : State) (v : Half) : (s.setShMin v).shCfg = s.shCfg := rfl
@[simp] theorem State.normOut_setShMin (s : State) (v : Half) : (s.setShMin v).normOut = s.normOut := rfl
@[simp] theorem State.lastRaw_setShMin (s : State) (v : Half) : (s.setShMin v).lastRaw = s.lastRaw := rfl
@[simp] theorem State.status_setShMin (s : State) (v : Half) : (s.setShMin v).status = s.status := rfl
@[simp] theorem State.inputs_setShMin (s : State) (v : Half) : (s.setShMin v).inputs = s.inputs := rfl

@[simp] theorem State.calMin_setShMax (s : State) (v : Half) : (s.setShMax v).calMin = s.calMin := rfl
@[simp] theorem State.calMax_setShMax (s : State) (v : Half) : (s.setShMax v).calMax = s.calMax := rfl
@[simp] theorem State.cfg_setShMax (s : State) (v : Half) : (s.setShMax v).cfg = s.cfg := rfl
@[simp] theorem State.shMin_setShMax (s : State) (v : Half) : (s.setShMax v).shMin = s.shMin := rfl
@[simp] theorem State.shMax_setShMax (s : State) (v : Half) : (s.setShMax v).shMax = v := rfl
@[simp] theorem State.shCfg_setShMax (s : State) (v : Half) : (s.setShMax v).shCfg = s.shCfg := rfl
@[simp] theorem State.normOut_setShMax (s : State) (v : Half) : (s.setShMax v).normOut = s.normOut := rfl
@[simp] theorem State.lastRaw_setShMax (s : State) (v : Half) : (s.setShMax v).lastRaw = s.lastRaw := rfl
@[simp] theorem State.status_setShMax (s : State) (v : Half) : (s.setShMax v).status = s.status := rfl
@[simp] theorem State.inputs_setShMax (s : State) (v : Half) : (s.setShMax v).inputs = s.inputs := rfl

@[simp] theorem State.calMin_setShCfg (s : State) (v : Half) : (s.setShCfg v).calMin = s.calMin := rfl
@[simp] theorem State.calMax_setShCfg (s : State) (v : Half) : (s.setShCfg v).calMax = s.calMax := rfl
@[simp] theorem State.cfg_setShCfg (s : State) (v : Half) : (s.setShCfg v).cfg = s.cfg := rfl
@[simp] theorem State.shMin_setShCfg (s : State) (v : Half) : (s.setShCfg v).shMin = s.shMin := rfl
@[simp] theorem State.shMax_setShCfg (s : State) (v : Half) : (s.setShCfg v).shMax = s.shMax := rfl
@[simp] theorem State.shCfg_setShCfg (s : State) (v : Half) : (s.setShCfg v).shCfg = v := rfl
@[simp] theorem State.normOut_setShCfg (s : State) (v : Half) : (s.setShCfg v).normOut = s.normOut := rfl
@[simp] theorem State.lastRaw_setShCfg (s : State) (v : Half) : (s.setShCfg v).lastRaw = s.lastRaw := rfl
@[simp] theorem State.status_setShCfg (s : State) (v : Half) : (s.setShCfg v).status = s.status := rfl
@[simp] theorem State.inputs_setShCfg (s : State) (v : Half) : (s.setShCfg v).inputs = s.inputs := rfl

@[simp] theorem State.calMin_setFlag (s : State) (b : StatusBit) (v : Bool) : (s.setFlag b v).calMin = s.calMin := rfl
@[simp] theorem State.calMax_setFlag (s : State) (b : StatusBit) (v : Bool) : (s.setFlag b v).calMax = s.calMax := rfl
@[simp] theorem State.cfg_setFlag (s : State) (b : StatusBit) (v : Bool) : (s.setFlag b v).cfg = s.cfg := rfl
@[simp] theorem State.shMin_setFlag (s : State) (b : StatusBit) (v : Bool) : (s.setFlag b v).shMin = s.shMin := rfl
@[simp] theorem State.shMax_setFlag (s : State) (b : StatusBit) (v : Bool) : (s.setFlag b v).shMax = s.shMax := rfl
@[simp] theorem State.shCfg_setFlag (s : State) (b : StatusBit) (v : Bool) : (s.setFlag b v).shCfg = s.shCfg := rfl
@[simp] theorem State.normOut_setFlag (s : State) (b : StatusBit) (v : Bool) : (s.setFlag b v).normOut = s.normOut := rfl
@[simp] theorem State.lastRaw_setFlag (s : State) (b : StatusBit) (v : Bool) : (s.setFlag b v).lastRaw = s.lastRaw := rfl
@[simp] theorem State.status_setFlag (s : State) (b : StatusBit) (v : Bool) : (s.setFlag b v).status = putBit s.status b.index v := rfl
@[simp] theorem State.inputs_setFlag (s : State) (b : StatusBit) (v : Bool) : (s.setFlag b v).inputs = s.inputs := rfl

@[simp] theorem State.calMin_setNormFlags (s : State) (o l h c : Bool) : (s.setNormFlags o l h c).calMin = s.calMin := rfl
@[simp] theorem State.calMax_setNormFlags (s : State) (o l h c : Bool) : (s.setNormFlags o l h c).calMax = s.calMax := rfl
@[simp] theorem State.cfg_setNormFlags (s : State) (o l h c : Bool) : (s.setNormFlags o l h c).cfg = s.cfg := rfl
@[simp] theorem State.shMin_setNormFlags (s : State) (o l h c : Bool) : (s.setNormFlags o l h c).shMin = s.shMin := rfl
@[simp] theorem State.shMax_setNormFlags (s : State) (o l h c : Bool) : (s.setNormFlags o l h c).shMax = s.shMax := rfl
@[simp] theorem State.shCfg_setNormFlags (s : State) (o l h c : Bool) : (s.setNormFlags o l h c).shCfg = s.shCfg := rfl
@[simp] theorem State.normOut_setNormFlags (s : State) (o l h c : Bool) : (s.setNormFlags o l h c).normOut = s.normOut := rfl
@[simp] theorem State.lastRaw_setNormFlags (s : State) (o l h c : Bool) : (s.setNormFlags o l h c).lastRaw = s.lastRaw := rfl
@[simp] theorem State.inputs_setNormFlags (s : State) (o l h c : Bool) : (s.setNormFlags o l h c).inputs = s.inputs := rfl

@[simp] theorem State.calMin_raise (s : State) (e : ErrorCause) : (s.raise e).calMin = s.calMin := rfl
@[simp] theorem State.calMax_raise (s : State) (e : ErrorCause) : (s.raise e).calMax = s.calMax := rfl
@[simp] theorem State.cfg_raise (s : State) (e : ErrorCause) : (s.raise e).cfg = s.cfg := rfl
@[simp] theorem State.shMin_raise (s : State) (e : ErrorCause) : (s.raise e).shMin = s.shMin := rfl
@[simp] theorem State.shMax_raise (s : State) (e : ErrorCause) : (s.raise e).shMax = s.shMax := rfl
@[simp] theorem State.shCfg_raise (s : State) (e : ErrorCause) : (s.raise e).shCfg = s.shCfg := rfl
@[simp] theorem State.normOut_raise (s : State) (e : ErrorCause) : (s.raise e).normOut = s.normOut := rfl
@[simp] theorem State.lastRaw_raise (s : State) (e : ErrorCause) : (s.raise e).lastRaw = s.lastRaw := rfl
@[simp] theorem State.status_raise (s : State) (e : ErrorCause) : (s.raise e).status = putBit s.status e.bit.index true := rfl
@[simp] theorem State.inputs_raise (s : State) (e : ErrorCause) : (s.raise e).inputs = s.inputs := rfl

@[simp] theorem State.calMin_acknowledge (s : State) : (s.acknowledge).calMin = s.calMin := rfl
@[simp] theorem State.calMax_acknowledge (s : State) : (s.acknowledge).calMax = s.calMax := rfl
@[simp] theorem State.cfg_acknowledge (s : State) : (s.acknowledge).cfg = s.cfg := rfl
@[simp] theorem State.shMin_acknowledge (s : State) : (s.acknowledge).shMin = s.shMin := rfl
@[simp] theorem State.shMax_acknowledge (s : State) : (s.acknowledge).shMax = s.shMax := rfl
@[simp] theorem State.shCfg_acknowledge (s : State) : (s.acknowledge).shCfg = s.shCfg := rfl
@[simp] theorem State.normOut_acknowledge (s : State) : (s.acknowledge).normOut = s.normOut := rfl
@[simp] theorem State.lastRaw_acknowledge (s : State) : (s.acknowledge).lastRaw = s.lastRaw := rfl
@[simp] theorem State.inputs_acknowledge (s : State) : (s.acknowledge).inputs = s.inputs := rfl

@[simp] theorem State.calMin_resetRegisters (s : State) : (s.resetRegisters).calMin = 0#16 := rfl
@[simp] theorem State.calMax_resetRegisters (s : State) : (s.resetRegisters).calMax = 0#16 := rfl
@[simp] theorem State.cfg_resetRegisters (s : State) : (s.resetRegisters).cfg = 0#16 := rfl
@[simp] theorem State.shMin_resetRegisters (s : State) : (s.resetRegisters).shMin = 0#16 := rfl
@[simp] theorem State.shMax_resetRegisters (s : State) : (s.resetRegisters).shMax = 0#16 := rfl
@[simp] theorem State.shCfg_resetRegisters (s : State) : (s.resetRegisters).shCfg = 0#16 := rfl
@[simp] theorem State.normOut_resetRegisters (s : State) : (s.resetRegisters).normOut = 0#16 := rfl
@[simp] theorem State.lastRaw_resetRegisters (s : State) : (s.resetRegisters).lastRaw = 0#16 := rfl
@[simp] theorem State.status_resetRegisters (s : State) : (s.resetRegisters).status = 0#16 := rfl
@[simp] theorem State.inputs_resetRegisters (s : State) : (s.resetRegisters).inputs = s.inputs := rfl

@[simp] theorem State.calMin_installCalibration (s : State) : (s.installCalibration).calMin = s.shMin := rfl
@[simp] theorem State.calMax_installCalibration (s : State) : (s.installCalibration).calMax = s.shMax := rfl
@[simp] theorem State.cfg_installCalibration (s : State) : (s.installCalibration).cfg = s.shCfg := rfl
@[simp] theorem State.shMin_installCalibration (s : State) : (s.installCalibration).shMin = s.shMin := rfl
@[simp] theorem State.shMax_installCalibration (s : State) : (s.installCalibration).shMax = s.shMax := rfl
@[simp] theorem State.shCfg_installCalibration (s : State) : (s.installCalibration).shCfg = s.shCfg := rfl
@[simp] theorem State.normOut_installCalibration (s : State) : (s.installCalibration).normOut = s.normOut := rfl
@[simp] theorem State.lastRaw_installCalibration (s : State) : (s.installCalibration).lastRaw = s.lastRaw := rfl
@[simp] theorem State.status_installCalibration (s : State) : (s.installCalibration).status = putBit s.status StatusBit.calValid.index true := rfl
@[simp] theorem State.inputs_installCalibration (s : State) : (s.installCalibration).inputs = s.inputs := rfl

@[simp] theorem State.calMin_normCalibrated (s : State) (db : Nat) (imm : Half) : (s.normCalibrated db imm).calMin = s.calMin := rfl
@[simp] theorem State.calMax_normCalibrated (s : State) (db : Nat) (imm : Half) : (s.normCalibrated db imm).calMax = s.calMax := rfl
@[simp] theorem State.cfg_normCalibrated (s : State) (db : Nat) (imm : Half) : (s.normCalibrated db imm).cfg = s.cfg := rfl
@[simp] theorem State.shMin_normCalibrated (s : State) (db : Nat) (imm : Half) : (s.normCalibrated db imm).shMin = s.shMin := rfl
@[simp] theorem State.shMax_normCalibrated (s : State) (db : Nat) (imm : Half) : (s.normCalibrated db imm).shMax = s.shMax := rfl
@[simp] theorem State.shCfg_normCalibrated (s : State) (db : Nat) (imm : Half) : (s.normCalibrated db imm).shCfg = s.shCfg := rfl
@[simp] theorem State.normOut_normCalibrated (s : State) (db : Nat) (imm : Half) : (s.normCalibrated db imm).normOut = halfOfNat (s.normResult db imm).value := rfl
@[simp] theorem State.lastRaw_normCalibrated (s : State) (db : Nat) (imm : Half) : (s.normCalibrated db imm).lastRaw = imm := rfl
@[simp] theorem State.inputs_normCalibrated (s : State) (db : Nat) (imm : Half) : (s.normCalibrated db imm).inputs = s.inputs := rfl

@[simp] theorem State.calMin_normUncalibrated (s : State) (imm : Half) : (s.normUncalibrated imm).calMin = s.calMin := rfl
@[simp] theorem State.calMax_normUncalibrated (s : State) (imm : Half) : (s.normUncalibrated imm).calMax = s.calMax := rfl
@[simp] theorem State.cfg_normUncalibrated (s : State) (imm : Half) : (s.normUncalibrated imm).cfg = s.cfg := rfl
@[simp] theorem State.shMin_normUncalibrated (s : State) (imm : Half) : (s.normUncalibrated imm).shMin = s.shMin := rfl
@[simp] theorem State.shMax_normUncalibrated (s : State) (imm : Half) : (s.normUncalibrated imm).shMax = s.shMax := rfl
@[simp] theorem State.shCfg_normUncalibrated (s : State) (imm : Half) : (s.normUncalibrated imm).shCfg = s.shCfg := rfl
@[simp] theorem State.normOut_normUncalibrated (s : State) (imm : Half) : (s.normUncalibrated imm).normOut = 0#16 := rfl
@[simp] theorem State.lastRaw_normUncalibrated (s : State) (imm : Half) : (s.normUncalibrated imm).lastRaw = imm := rfl
@[simp] theorem State.inputs_normUncalibrated (s : State) (imm : Half) : (s.normUncalibrated imm).inputs = s.inputs := rfl

end Sys2Proof.Machine
end

