-- ==== Sys2Proof/Laws/Flags.lean ====
section
/-! SUPPORT. STATUS bit by bit: what each update of STATUS does to every bit, reserved bits included. -/

namespace Sys2Proof.Machine

theorem getLsbD_putBit (w : Half) (n m : Nat) (v : Bool) (hn : n < 16) :
    (putBit w n v).getLsbD m = if m = n then v else w.getLsbD m := by
  unfold putBit
  by_cases h : m = n
  · subst h; cases v <;> simp [hn]
  · cases v
    · by_cases hm : m < 16
      · simp [h, hm]
      · simp [h, BitVec.getLsbD_of_ge _ _ (by omega : 16 ≤ m)]
    · simp [h, show ¬n = m from fun e => h e.symm]

theorem StatusBit.index_lt (b : StatusBit) : b.index < 8 := by cases b <;> decide

theorem StatusBit.index_inj {b c : StatusBit} : b.index = c.index ↔ b = c := by
  cases b <;> cases c <;> decide

/-- Every bit of STATUS after one flag is written. -/
theorem State.status_bit_setFlag (s : State) (b : StatusBit) (v : Bool) (n : Nat) :
    (s.setFlag b v).status.getLsbD n = if n = b.index then v else s.status.getLsbD n :=
  getLsbD_putBit _ _ _ _ (Nat.lt_trans b.index_lt (by decide))

@[simp] theorem State.flag_setFlag (s : State) (b c : StatusBit) (v : Bool) :
    (s.setFlag b v).flag c = if c = b then v else s.flag c := by
  simp [State.flag, getLsbD_putBit _ _ _ _ (Nat.lt_trans b.index_lt (by decide : 8 < 16)), StatusBit.index_inj]

@[simp] theorem State.flag_setShMin (s : State) (v : Half) (b : StatusBit) : (s.setShMin v).flag b = s.flag b := rfl
@[simp] theorem State.flag_setShMax (s : State) (v : Half) (b : StatusBit) : (s.setShMax v).flag b = s.flag b := rfl
@[simp] theorem State.flag_setShCfg (s : State) (v : Half) (b : StatusBit) : (s.setShCfg v).flag b = s.flag b := rfl

/-- Every bit of STATUS after an error is raised. -/
theorem State.status_bit_raise (s : State) (e : ErrorCause) (n : Nat) :
    (s.raise e).status.getLsbD n = if n = e.bit.index then true else s.status.getLsbD n :=
  s.status_bit_setFlag _ _ _

@[simp] theorem State.flag_raise (s : State) (e : ErrorCause) (c : StatusBit) :
    (s.raise e).flag c = if c = e.bit then true else s.flag c := s.flag_setFlag _ _ _

/-- Every bit of STATUS after the sticky bits are cleared. -/
theorem State.status_bit_acknowledge (s : State) (n : Nat) :
    s.acknowledge.status.getLsbD n = if n = 5 ∨ n = 6 ∨ n = 7 then false else s.status.getLsbD n := by
  simp only [State.acknowledge, State.status_bit_setFlag, StatusBit.index]
  split_ifs <;> simp_all

@[simp] theorem State.flag_acknowledge (s : State) (c : StatusBit) :
    s.acknowledge.flag c = if c = .calErr ∨ c = .commitRej ∨ c = .illegal then false else s.flag c := by
  simp only [State.acknowledge, State.flag_setFlag]
  split_ifs <;> simp_all

/-- Every bit of STATUS after NORM's four bits are written. -/
theorem State.status_bit_setNormFlags (s : State) (o l h c : Bool) (n : Nat) :
    (s.setNormFlags o l h c).status.getLsbD n =
      if n = 0 then o else if n = 2 then l else if n = 3 then h else if n = 4 then c else s.status.getLsbD n := by
  simp only [State.setNormFlags, State.status_bit_setFlag, StatusBit.index]
  split_ifs <;> simp_all

@[simp] theorem State.flag_setNormFlags (s : State) (o l h c : Bool) (b : StatusBit) :
    (s.setNormFlags o l h c).flag b =
      match b with
      | .outValid => o
      | .dbLo => l
      | .dbHi => h
      | .clip => c
      | b => s.flag b := by
  cases b <;> simp [State.setNormFlags]

@[simp] theorem State.flag_resetRegisters (s : State) (b : StatusBit) : s.resetRegisters.flag b = false := by
  simp [State.flag]

@[simp] theorem State.flag_installCalibration (s : State) (b : StatusBit) :
    s.installCalibration.flag b = if b = .calValid then true else s.flag b :=
  State.flag_setFlag _ _ _ _

/-- Every bit of STATUS after an accepted COMMIT. -/
theorem State.status_bit_installCalibration (s : State) (n : Nat) :
    s.installCalibration.status.getLsbD n = if n = 1 then true else s.status.getLsbD n :=
  State.status_bit_setFlag _ .calValid _ _

/-- Every bit of STATUS after a NORM that found CAL_VALID = 1. -/
theorem State.status_bit_normCalibrated (s : State) (db : Nat) (imm : Half) (n : Nat) :
    (s.normCalibrated db imm).status.getLsbD n =
      if n = 0 then true
      else if n = 2 then (s.normResult db imm).dbLo
      else if n = 3 then (s.normResult db imm).dbHi
      else if n = 4 then (s.normResult db imm).clip else s.status.getLsbD n :=
  State.status_bit_setNormFlags _ _ _ _ _ _

@[simp] theorem State.flag_normCalibrated (s : State) (db : Nat) (imm : Half) (b : StatusBit) :
    (s.normCalibrated db imm).flag b =
      match b with
      | .outValid => true
      | .dbLo => (s.normResult db imm).dbLo
      | .dbHi => (s.normResult db imm).dbHi
      | .clip => (s.normResult db imm).clip
      | b => s.flag b := by
  cases b <;> exact State.flag_setNormFlags _ _ _ _ _ _

/-- Every bit of STATUS after a NORM that found CAL_VALID = 0. -/
theorem State.status_bit_normUncalibrated (s : State) (imm : Half) (n : Nat) :
    (s.normUncalibrated imm).status.getLsbD n =
      if n = 5 then true else if n = 0 ∨ n = 2 ∨ n = 3 ∨ n = 4 then false else s.status.getLsbD n := by
  simp only [State.normUncalibrated, State.status_bit_raise, State.status_bit_setNormFlags, ErrorCause.bit,
    StatusBit.index]
  split_ifs <;> simp_all

@[simp] theorem State.flag_normUncalibrated (s : State) (imm : Half) (b : StatusBit) :
    (s.normUncalibrated imm).flag b =
      match b with
      | .outValid | .dbLo | .dbHi | .clip => false
      | .calErr => true
      | b => s.flag b := by
  cases b <;> simp [State.normUncalibrated, ErrorCause.bit] <;> rfl

/-- The reserved bits 15:8 of STATUS are 0 exactly when each of them is. -/
theorem statusReserved_iff (w : Half) :
    w.extractLsb' 8 8 = 0#8 ↔ ∀ n, 8 ≤ n → w.getLsbD n = false := by
  constructor
  · intro h n hn
    by_cases h16 : n < 16
    · have := congrArg (fun v => v.getLsbD (n - 8)) h
      simpa [BitVec.getLsbD_extractLsb', show n - 8 < 8 by omega, show 8 + (n - 8) = n by omega] using this
    · exact BitVec.getLsbD_of_ge _ _ (by omega)
  · intro h
    apply BitVec.eq_of_getLsbD_eq
    intro i hi
    simp [BitVec.getLsbD_extractLsb', h (8 + i) (by omega)]

end Sys2Proof.Machine
end

