-- ==== Sys2Proof/Laws/Scaling.lean ====
section
/-! SUPPORT. What the pieces of NORM's arithmetic can give (R65 to R68). -/

namespace Sys2Proof.Machine

@[simp] theorem effBounds_false (a b : Int) : effBounds a b false = (a, b) := rfl

@[simp] theorem effBounds_true (a b : Int) : effBounds a b true = (b, a) := rfl

theorem effBounds_ne {a b : Int} (h : a ≠ b) (rev : Bool) : (effBounds a b rev).1 ≠ (effBounds a b rev).2 := by
  cases rev
  · exact h
  · exact h.symm

/-- The clamped sample lies in the closed interval between the bounds (R66). -/
theorem clampRaw_between (raw lo hi : Int) :
    min lo hi ≤ (clampRaw raw lo hi).1 ∧ (clampRaw raw lo hi).1 ≤ max lo hi := by
  unfold clampRaw; omega

/-- A sample inside the interval is kept (R66). -/
theorem clampRaw_of_inside {raw lo hi : Int} (h1 : min lo hi ≤ raw) (h2 : raw ≤ max lo hi) :
    clampRaw raw lo hi = (raw, false) := by
  unfold clampRaw
  refine Prod.ext ?_ ?_
  · show max (min lo hi) (min raw (max lo hi)) = raw
    omega
  · have h3 : ¬raw < min lo hi := by omega
    have h4 : ¬max lo hi < raw := by omega
    simp only [h3, h4, decide_false, Bool.or_self]

theorem scale_of_ne {lo hi : Int} (h : lo ≠ hi) (c : Int) :
    scale c lo hi = (c - lo).natAbs * 256 / (hi - lo).natAbs := by simp [scale, h, Config.full]

theorem scale_lo {lo hi : Int} (h : lo ≠ hi) : scale lo lo hi = 0 := by simp [scale_of_ne h]

theorem scale_hi {lo hi : Int} (h : lo ≠ hi) : scale hi lo hi = 256 := by
  rw [scale_of_ne h]
  exact Nat.mul_div_cancel_left _ (by omega)

/-- The three outcomes of the deadband (R67). -/
theorem deadband_cases (s db : Nat) :
    (s ≤ db ∧ deadband s db = (0, true, false)) ∨
    (db < s ∧ 256 - db ≤ s ∧ deadband s db = (256, false, true)) ∨
    (db < s ∧ s < 256 - db ∧ deadband s db = (s, false, false)) := by
  unfold deadband
  simp only [Config.full]
  by_cases h1 : s ≤ db
  · exact .inl ⟨h1, if_pos h1⟩
  · rw [if_neg h1]
    by_cases h2 : 256 - db ≤ s
    · exact .inr (.inl ⟨by omega, h2, if_pos h2⟩)
    · exact .inr (.inr ⟨by omega, by omega, if_neg h2⟩)

/-- Whatever was scaled, the value is in 0..256 and the two band flags are not both set (R22, R30). -/
theorem deadband_range (s db : Nat) :
    (deadband s db).1 ≤ 256 ∧ ¬((deadband s db).2.1 = true ∧ (deadband s db).2.2 = true) := by
  rcases deadband_cases s db with ⟨_, h⟩ | ⟨_, _, h⟩ | ⟨_, _, h⟩ <;> rw [h] <;> simp
  omega

theorem normalizeSample_range (db : Nat) (raw a b : Int) (rev : Bool) :
    (normalizeSample db raw a b rev).value ≤ 256 ∧
    ¬((normalizeSample db raw a b rev).dbLo = true ∧ (normalizeSample db raw a b rev).dbHi = true) :=
  deadband_range _ _

end Sys2Proof.Machine
end

