-- ==== Sys2Proof/Laws/Norm.lean ====
section
/-! SUPPORT. What NORM's calibrated effect can put in NORM_OUT (R22, R64). -/

namespace Sys2Proof.Machine

theorem toNat_halfOfNat {n : Nat} (h : n < 65536) : (halfOfNat n).toNat = n := by
  simp [halfOfNat, Nat.mod_eq_of_lt h]

theorem State.normResult_range (s : State) (db : Nat) (imm : Half) :
    (s.normResult db imm).value ≤ 256 ∧ ¬((s.normResult db imm).dbLo = true ∧ (s.normResult db imm).dbHi = true) :=
  normalizeSample_range _ _ _ _ _

theorem State.toNat_normOut_normCalibrated (s : State) (db : Nat) (imm : Half) :
    (s.normCalibrated db imm).normOut.toNat = (s.normResult db imm).value :=
  toNat_halfOfNat (Nat.lt_of_le_of_lt (s.normResult_range db imm).1 (by decide))

/-- The result depends only on the active calibration (R63, R64). -/
theorem State.normResult_congr {s u : State} (db : Nat) (imm : Half)
    (hmin : s.calMin = u.calMin) (hmax : s.calMax = u.calMax) (hcfg : s.cfg = u.cfg) :
    s.normResult db imm = u.normResult db imm := by
  simp only [State.normResult, hmin, hmax, hcfg]

end Sys2Proof.Machine
end

