-- ==== Sys2Proof/Laws/PerInstr.lean ====
section
/-! SUPPORT. The family LegalEncoding, one lemma per command: its word meets the three conditions of legality on
words (R50, R51, R53). -/

namespace Sys2Proof.Laws.LegalEncoding

def Statement (i : Instr) : Prop := legalWord (encode i) = true

theorem legal_free (op : BitVec 4) (p : Half) (h : op.toNat = 1 ∨ op.toNat = 2 ∨ op.toNat = 5) :
    legalWord (formatWord op p) = true := by
  have hp := p.isLt
  have hw := formatWord_toNat op p
  have h16 : (formatWord op p).toNat / 2 ^ 16 % 16 = op.toNat := by omega
  have h20 : (formatWord op p).toNat / 2 ^ 20 = 0 := by omega
  simp only [legalWord, rsvClear, opDefined, payloadClear, h16, h20]
  rcases h with h | h | h <;> rw [h] <;> rfl

theorem nop : Statement .nop := rfl
theorem wrmin (imm : Half) : Statement (.wrmin imm) := legal_free 0x1#4 imm (by decide)
theorem wrmax (imm : Half) : Statement (.wrmax imm) := legal_free 0x2#4 imm (by decide)
theorem wrcfg (rev : Bool) : Statement (.wrcfg rev) := by cases rev <;> rfl
theorem commit : Statement .commit := rfl
theorem norm (imm : Half) : Statement (.norm imm) := legal_free 0x5#4 imm (by decide)
theorem clrsts : Statement .clrsts := rfl

end Sys2Proof.Laws.LegalEncoding
end

