-- ==== Sys2Proof/Laws/Step.lean ====
section
/-! SUPPORT. What one step can do, said once: every later proof about `step` cites `step_next_cases`. -/

namespace Sys2Proof.Machine

/-- Every command answers a next state, and it is one of these (R59 to R74). -/
theorem exec_next_cases {i : Instr} {s t : State} (h : exec i s = .next t) :
    (i = .nop ∧ t = s) ∨
    (∃ imm, i = .wrmin imm ∧ t = s.setShMin imm) ∨
    (∃ imm, i = .wrmax imm ∧ t = s.setShMax imm) ∨
    (∃ rev, i = .wrcfg rev ∧ t = s.setShCfg (revPayload rev)) ∨
    (i = .commit ∧ s.shMin = s.shMax ∧ t = s.raise .commitRejected) ∨
    (i = .commit ∧ s.shMin ≠ s.shMax ∧ t = s.installCalibration) ∨
    (∃ imm, i = .norm imm ∧ s.flag .calValid = true ∧ t = s.normCalibrated Config.pDeadband imm) ∨
    (∃ imm, i = .norm imm ∧ s.flag .calValid = false ∧ t = s.normUncalibrated imm) ∨
    (i = .clrsts ∧ t = s.acknowledge) := by
  cases i with
  | nop => injection h with h; exact .inl ⟨rfl, h.symm⟩
  | wrmin imm => injection h with h; exact .inr (.inl ⟨imm, rfl, h.symm⟩)
  | wrmax imm => injection h with h; exact .inr (.inr (.inl ⟨imm, rfl, h.symm⟩))
  | wrcfg rev => injection h with h; exact .inr (.inr (.inr (.inl ⟨rev, rfl, h.symm⟩)))
  | commit =>
    injection h with h
    split at h
    · exact .inr (.inr (.inr (.inr (.inl ⟨rfl, ‹_›, h.symm⟩))))
    · exact .inr (.inr (.inr (.inr (.inr (.inl ⟨rfl, ‹_›, h.symm⟩)))))
  | norm imm =>
    injection h with h
    unfold State.norm at h
    split at h
    · exact .inr (.inr (.inr (.inr (.inr (.inr (.inl ⟨imm, rfl, ‹_›, h.symm⟩))))))
    · exact .inr (.inr (.inr (.inr (.inr (.inr (.inr (.inl ⟨imm, rfl, Bool.eq_false_iff.mpr ‹_›, h.symm⟩)))))))
  | clrsts => injection h with h; exact .inr (.inr (.inr (.inr (.inr (.inr (.inr (.inr ⟨rfl, h.symm⟩)))))))

/-- The state the next edge works on: the signals of this step are taken from the list. -/
def State.taken (s : State) : State := { s with inputs := s.inputs.tail }

@[simp] theorem State.calMin_taken (s : State) : s.taken.calMin = s.calMin := rfl
@[simp] theorem State.calMax_taken (s : State) : s.taken.calMax = s.calMax := rfl
@[simp] theorem State.cfg_taken (s : State) : s.taken.cfg = s.cfg := rfl
@[simp] theorem State.shMin_taken (s : State) : s.taken.shMin = s.shMin := rfl
@[simp] theorem State.shMax_taken (s : State) : s.taken.shMax = s.shMax := rfl
@[simp] theorem State.shCfg_taken (s : State) : s.taken.shCfg = s.shCfg := rfl
@[simp] theorem State.normOut_taken (s : State) : s.taken.normOut = s.normOut := rfl
@[simp] theorem State.lastRaw_taken (s : State) : s.taken.lastRaw = s.lastRaw := rfl
@[simp] theorem State.status_taken (s : State) : s.taken.status = s.status := rfl
@[simp] theorem State.inputs_taken (s : State) : s.taken.inputs = s.inputs.tail := rfl
@[simp] theorem State.flag_taken (s : State) (b : StatusBit) : s.taken.flag b = s.flag b := rfl
@[simp] theorem State.normResult_taken (s : State) (db : Nat) (imm : Half) :
    s.taken.normResult db imm = s.normResult db imm := rfl

/-- One step is idle, a reset, an illegal word or a command, and each is told apart by what the host drives. -/
theorem step_next_cases {s t : State} (h : step s = .next t) :
    (¬s.resets ∧ ¬s.presentsIllegal ∧ (∀ i, ¬s.presents i) ∧ t = s.taken) ∨
    (s.resets ∧ ¬s.presentsIllegal ∧ (∀ i, ¬s.presents i) ∧ t = s.taken.resetRegisters) ∨
    (¬s.resets ∧ s.presentsIllegal ∧ (∀ i, ¬s.presents i) ∧ t = s.taken.raise .illegalCommand) ∨
    (∃ i, ¬s.resets ∧ ¬s.presentsIllegal ∧ (∀ j, s.presents j ↔ j = i) ∧ exec i s.taken = .next t) := by
  unfold step at h
  cases hs : s.inputs with
  | nil =>
    rw [hs] at h
    injection h with h
    refine .inl ⟨by simp [State.resets, hs], by simp [State.presentsIllegal, hs], by simp [State.presents, hs], ?_⟩
    rw [← h]; cases s; simp_all [State.taken]
  | cons x rest =>
    rw [hs] at h
    have ht : s.taken = { s with inputs := rest } := by simp [State.taken, hs]
    have hR : s.resets ↔ x.rst = true := by simp [State.resets, hs]
    have hI : s.presentsIllegal ↔ x.rst = false ∧ x.cmdValid = true ∧ ∃ e, decode x.cmd = .error e := by
      simp [State.presentsIllegal, hs]
    have hP : ∀ j, s.presents j ↔ x.rst = false ∧ x.cmdValid = true ∧ decode x.cmd = .ok j := by
      simp [State.presents, hs]
    simp only [hR, hI, hP, ht]
    simp only [clockEdge] at h
    cases hr : x.rst
    · cases hv : x.cmdValid
      · simp only [hr, hv] at h
        injection h with h
        exact .inl ⟨by simp, by simp, by simp, h.symm⟩
      · simp only [hr, hv, present] at h
        cases hd : decode x.cmd with
        | error e =>
          simp only [hd] at h
          injection h with h
          exact .inr (.inr (.inl ⟨by simp, by simp, by simp, h.symm⟩))
        | ok i =>
          simp only [hd] at h
          exact .inr (.inr (.inr ⟨i, by simp, by simp, by simp [eq_comm], h⟩))
    · simp only [hr] at h
      injection h with h
      exact .inr (.inl ⟨by simp, by simp, by simp, h.symm⟩)

end Sys2Proof.Machine
end

