-- ==== Sys2Proof/Tests/Slice0.lean ====
section
/-! SUPPORT. Small tests whose expected values come from the spec's tables (95_test_vectors.md and the examples of the
rules), and one witness for the hypotheses of each statement of Certificates/Slice0/Obligations.lean. -/

namespace Sys2Proof.Tests

open Sys2Proof.Machine

/-! ## Well-formedness: an ill-formed term for each check -/

theorem test_rsvClear_refuses : rsvClear 0x00100000#32 = false ∧ legalWord 0x00100000#32 = false := by decide
theorem test_opDefined_refuses : opDefined 0x00070000#32 = false ∧ legalWord 0x00070000#32 = false := by decide
theorem test_payloadClear_refuses_nop : payloadClear 0x00000001#32 = false ∧ legalWord 0x00000001#32 = false := by decide
theorem test_payloadClear_refuses_wrcfg : payloadClear 0x00038001#32 = false ∧ legalWord 0x00038001#32 = false := by decide
theorem test_payloadClear_refuses_commit : payloadClear 0x00040001#32 = false ∧ legalWord 0x00040001#32 = false := by decide
theorem test_payloadClear_refuses_clrsts : payloadClear 0x00060001#32 = false ∧ legalWord 0x00060001#32 = false := by decide
theorem test_asmImmOk_refuses_dec : asmImmOk (.dec 32768) = false ∧ asmImmOk (.dec (-32769)) = false := by decide
theorem test_asmImmOk_refuses_hex : asmImmOk (.hex 0x10000) = false := by decide
theorem test_asmLineOk_refuses_rev : asmLineOk (.wrcfg 2) = false ∧ asmLineOk (.cal (.dec 0) (.dec 1) (some 2)) = false := by decide
theorem test_asmLineOk_refuses_word : asmLineOk (.word 0x100000000) = false := by decide
theorem test_legal_words : legalWord 0x0001F800#32 = true ∧ legalWord 0x00030001#32 = true ∧ (Instr.norm 0x8000#16).wellFormed = true := by
  decide

/-! ## Decoding: each constructor's word bit by bit, `rsv = 0`, then `op`, then the payload (R49, R51, 95 section 2) -/

theorem test_decode_nop : decode 0b000000000000_0000_0000000000000000#32 = .ok .nop := by decide
theorem test_decode_wrmin : decode 0b000000000000_0001_1111100000000000#32 = .ok (.wrmin 0xF800#16) := by decide
theorem test_decode_wrmax : decode 0b000000000000_0010_0000100000000000#32 = .ok (.wrmax 0x0800#16) := by decide
theorem test_decode_wrcfg : decode 0b000000000000_0011_0000000000000001#32 = .ok (.wrcfg true) := by decide
theorem test_decode_commit : decode 0b000000000000_0100_0000000000000000#32 = .ok .commit := by decide
theorem test_decode_norm : decode 0b000000000000_0101_1000000000000000#32 = .ok (.norm 0x8000#16) := by decide
theorem test_decode_clrsts : decode 0b000000000000_0110_0000000000000000#32 = .ok .clrsts := by decide
theorem test_decode_rejects_by_name :
    decode 0x00060001#32 = .error .reservedPayload ∧ decode 0x000F0000#32 = .error .reservedOpcode ∧
    decode 0x01050000#32 = .error .reservedHigh ∧ decode 0xFFFFFFFF#32 = .error .reservedHigh := by decide
theorem test_decode_bytes_little_endian :
    decodeBytes [0x00#8, 0xF8#8, 0x01#8, 0x00#8, 0x2A#8] = .ok (.wrmin 0xF800#16, [0x2A#8]) := by decide
theorem test_opTable_rows_disjoint :
    opTable.Pairwise (fun r q => (r.matchBits ^^^ q.matchBits) &&& r.mask &&& q.mask ≠ 0#32) := by decide
theorem test_opTable_names_the_command :
    opTable.map (fun r => (decode r.matchBits).toOption.map Instr.mnemonic) = opTable.map (fun r => some r.mnemonic) := by
  decide
theorem test_decodeTableWord_norm : decodeTableWord 32 0x0005FFFF = some (.norm 0xFFFF#16) := by decide

/-! ## The arithmetic of NORM (95 section 3; the deadband width is the table's P_DEADBAND) -/

theorem test_N1_midpoint : normalizeSample 8 0 (-2048) 2048 false = ⟨128, false, false, false⟩ := by decide
theorem test_N4_below_lo : normalizeSample 8 (-3000) (-2048) 2048 false = ⟨0, true, false, true⟩ := by decide
theorem test_N10_above_low_band : normalizeSample 8 9 0 256 false = ⟨9, false, false, false⟩ := by decide
theorem test_N12_high_band_edge : normalizeSample 8 248 0 256 false = ⟨256, false, true, false⟩ := by decide
theorem test_N18_widest_band : normalizeSample 127 128 0 256 false = ⟨128, false, false, false⟩ := by decide
theorem test_N24_reverse_clip : normalizeSample 8 1200 100 1100 true = ⟨0, true, false, true⟩ := by decide
theorem test_N26_descending_clip : normalizeSample 8 50 1100 100 false = ⟨256, false, true, true⟩ := by decide
theorem test_N27_N28_rounding :
    normalizeSample 8 1 0 3 false = ⟨85, false, false, false⟩ ∧ normalizeSample 8 1 0 3 true = ⟨170, false, false, false⟩ := by
  decide
theorem test_N33_full_span : normalizeSample 8 (-1) (-32768) 32767 false = ⟨127, false, false, false⟩ := by decide
theorem test_N33_full_span_24_bits : scaleBits 24 0xFFFF#16 0x8000#16 0x7FFF#16 = 127#24 := by decide

/-! ## One step each (95 section 4) -/

/-- The reset state, with one word about to be presented. -/
def presenting (s : State) (w : CmdWord) : State := { s with inputs := [Stimulus.command w] }

/-- After `CAL -2048, 2048`. -/
def calibrated : State :=
  { State.reset with
    calMin := 0xF800#16, calMax := 0x0800#16, shMin := 0xF800#16, shMax := 0x0800#16, status := 0x0002#16 }

/-- After `CAL -2048, 2048` and `NORM 3000` with P_DEADBAND = 8. -/
def sampled : State := { calibrated with normOut := 0x0100#16, lastRaw := 0x0BB8#16, status := 0x001B#16 }

/-- Reading off a next state. -/
def nextOf (o : Host.Outcome State Fault Refusal) : State :=
  match o with
  | .next t => t
  | .fault _ => State.reset
  | .refused _ => State.reset

theorem test_C1_wrmin : nextOf (step (presenting .reset 0x0001F800#32)) = { State.reset with shMin := 0xF800#16 } := by decide
theorem test_C2_wrmax : nextOf (step (presenting .reset 0x00027FFF#32)) = { State.reset with shMax := 0x7FFF#16 } := by decide
theorem test_C3_wrcfg : nextOf (step (presenting .reset 0x00030001#32)) = { State.reset with shCfg := 0x0001#16 } := by decide
theorem test_C4_commit_rejected : nextOf (step (presenting .reset 0x00040000#32)) = { State.reset with status := 0x0040#16 } := by
  decide
theorem test_C5_commit : nextOf (step (presenting { calibrated with calMin := 0#16, calMax := 0#16, status := 0#16 } 0x00040000#32)) =
    calibrated := by decide
theorem test_norm_uncalibrated : nextOf (step (presenting .reset 0x00050064#32)) =
    { State.reset with lastRaw := 0x0064#16, status := 0x0020#16 } := by decide
theorem test_N5_norm : calibrated.norm 8 0x0BB8#16 = sampled := by decide
theorem test_C10_nop : nextOf (step (presenting sampled 0x00000000#32)) = sampled := by decide
theorem test_clrsts_example : nextOf (step (presenting { calibrated with status := 0x00E3#16 } 0x00060000#32)) =
    { calibrated with status := 0x0003#16 } := by decide
theorem test_C12_illegal : nextOf (step (presenting sampled 0x00030002#32)) = { sampled with status := 0x009B#16 } := by decide
theorem test_reset_wins : nextOf (step { sampled with inputs := [⟨true, true, 0x00050000#32, 0x0#4⟩] }) = State.reset := by decide
theorem test_idle : nextOf (step { sampled with inputs := [⟨false, false, 0x00050000#32, 0x0#4⟩] }) = sampled := by decide
theorem test_read_port :
    sampled.readPort 0x1#4 = 0x0100#16 ∧ sampled.readPort 0x4#4 = 0x0800#16 ∧ sampled.readPort 0xA#4 = 0x0100#16 ∧
    sampled.readPort 0xC#4 = 0x0000#16 := by decide
theorem test_withFetchWord_runs : nextOf (step (State.reset.withFetchWord 32 0x00020800)) = { State.reset with shMax := 0x0800#16 } := by
  decide
theorem test_error_codes : ErrorCause.calibrationInvalid.code = 5 ∧ ErrorCause.commitRejected.code = 6 ∧
    ErrorCause.illegalCommand.code = 7 := by decide
theorem test_asm_word : assembleText ".word 0x01050000 ; illegal" = some [0x01050000#32] := by decide
theorem test_asm_cal_reverse : assembleText "cal 100,1100, 1" =
    some [0x00010064#32, 0x0002044C#32, 0x00030001#32, 0x00040000#32] := by decide
theorem test_asm_blank_line : assembleText "" = some [] ∧ assembleText "  ; only a comment" = some [] := by decide
theorem test_asm_refuses : assembleText "NORM 40000" = none ∧ assembleText "NORM" = none ∧ assembleText "WRCFG 2" = none := by
  decide

/-! ## Witnesses: concrete terms that meet the hypotheses of each statement -/

/-- A reset step with a command beside it. -/
def resetStim : Stimulus := ⟨true, true, 0x00050000#32, 0x0#4⟩

/-- An idle step. -/
def idleStim : Stimulus := ⟨false, false, 0xFFFFFFFF#32, 0xF#4⟩

theorem test_witness_ResetStepZeroesEveryRegister :
    ({ sampled with inputs := [resetStim] } : State).inputs = resetStim :: [] ∧ resetStim.rst = true := by decide
theorem test_witness_DecodeAndEncodeAreInverse : decode 0x0001FFFF#32 = .ok (.wrmin 0xFFFF#16) := by decide
theorem test_witness_ByteTransportIsLittleEndian :
    ([] : List Byte).length < 4 ∧ [0x00#8, 0x00#8, 0x00#8].length < 4 := by decide
theorem test_witness_StepRunsTheDecodedCommand :
    (presenting sampled 0x0005FFFF#32).inputs = Stimulus.command 0x0005FFFF#32 :: [] ∧
    (Stimulus.command 0x0005FFFF#32).rst = false ∧ (Stimulus.command 0x0005FFFF#32).cmdValid = true ∧
    decode (Stimulus.command 0x0005FFFF#32).cmd = .ok (.norm 0xFFFF#16) := by decide
theorem test_witness_IdleStepChangesNoState :
    ({ sampled with inputs := [idleStim] } : State).inputs = idleStim :: [] ∧ idleStim.cmdValid = false ∧
    idleStim.rst = false := by decide
theorem test_witness_IllegalWordOnlySetsIllegal :
    (presenting sampled 0x00030002#32).inputs = Stimulus.command 0x00030002#32 :: [] ∧
    (Stimulus.command 0x00030002#32).rst = false ∧ (Stimulus.command 0x00030002#32).cmdValid = true ∧
    ∃ e, decode (Stimulus.command 0x00030002#32).cmd = .error e :=
  ⟨by decide, by decide, by decide, .reservedPayload, by decide⟩
theorem test_witness_NopWritesNoState : (0x0001#16 : Half) ≠ 0#16 := by decide
theorem test_witness_WrcfgWritesOnlyTheShadowConfiguration :
    (0x0002#16 : Half).extractLsb' 1 15 ≠ 0#15 ∧ (0x8001#16 : Half).extractLsb' 1 15 ≠ 0#15 := by decide
theorem test_witness_ClrstsClearsOnlyTheStickyBits : (0x8000#16 : Half) ≠ 0#16 := by decide
theorem test_witness_CommitInstallsOrRejects :
    calibrated.shMin ≠ calibrated.shMax ∧ State.reset.shMin = State.reset.shMax := by decide
theorem test_witness_CommitOfEqualBoundsIsRejectedInItsStep :
    (presenting State.reset 0x00040000#32).presents .commit ∧
    (presenting State.reset 0x00040000#32).shMin = (presenting State.reset 0x00040000#32).shMax :=
  ⟨⟨_, _, rfl, rfl, rfl, by decide⟩, by decide⟩
theorem test_witness_NormComputesTheNormalizedValue :
    (calibrated.flag .calValid = true ∧ calibrated.calMin ≠ calibrated.calMax) ∧ State.reset.flag .calValid = false := by
  decide
theorem test_witness_UncalibratedNormRaisesCalErrInItsStep :
    (presenting State.reset 0x00050064#32).presents (.norm 0x0064#16) ∧
    (presenting State.reset 0x00050064#32).flag .calValid = false :=
  ⟨⟨_, _, rfl, rfl, rfl, by decide⟩, by decide⟩
theorem test_witness_RegistersChangeOnlyByTheirCommands :
    step { sampled with inputs := [resetStim] } = .next State.reset ∧ State.reset.calMin ≠ sampled.calMin ∧
    step (presenting sampled 0x00010000#32) = .next (sampled.setShMin 0x0000#16) ∧
    (sampled.setShMin 0x0000#16).shMin ≠ sampled.shMin ∧
    step (presenting sampled 0x00020000#32) = .next (sampled.setShMax 0x0000#16) ∧
    (sampled.setShMax 0x0000#16).shMax ≠ sampled.shMax ∧
    step (presenting sampled 0x00030001#32) = .next (sampled.setShCfg 0x0001#16) ∧
    (sampled.setShCfg 0x0001#16).shCfg ≠ sampled.shCfg ∧
    step (presenting State.reset 0x00050064#32) = .next (State.reset.normUncalibrated 0x0064#16) ∧
    (State.reset.normUncalibrated 0x0064#16).lastRaw ≠ State.reset.lastRaw :=
  ⟨rfl, by decide, rfl, by decide, rfl, by decide, rfl, by decide, rfl, by decide⟩
theorem test_witness_CalibrationFamilyKeepsTheResult :
    (Instr.wrcfg true = .commit ∨ (∃ imm, Instr.wrcfg true = .wrmin imm) ∨ (∃ imm, Instr.wrcfg true = .wrmax imm) ∨
      ∃ rev, Instr.wrcfg true = .wrcfg rev) := .inr (.inr (.inr ⟨true, rfl⟩))
theorem test_witness_ResultBitsBelongToTheLastNorm :
    step (presenting calibrated 0x00050BB8#32) = .next (calibrated.normCalibrated Config.pDeadband 0x0BB8#16) ∧
    (presenting calibrated 0x00050BB8#32).presents (.norm 0x0BB8#16) ∧
    (presenting calibrated 0x00050BB8#32).flag .calValid = true ∧
    (presenting State.reset 0x00050064#32).presents (.norm 0x0064#16) ∧
    (presenting State.reset 0x00050064#32).flag .calValid = false ∧
    ({ sampled with inputs := [resetStim] } : State).resets ∧
    ¬(presenting calibrated 0x00000000#32).resets ∧ ∀ imm, ¬(presenting calibrated 0x00000000#32).presents (.norm imm) :=
  ⟨rfl, ⟨_, _, rfl, rfl, rfl, by decide⟩, by decide, ⟨_, _, rfl, rfl, rfl, by decide⟩, by decide, ⟨_, _, rfl, rfl⟩,
   (by rintro ⟨_, _, h, h'⟩; cases h; cases h'),
   (by rintro imm ⟨_, _, h, _, _, h'⟩; cases h; cases h')⟩
theorem test_witness_CalValidIsSetByCommitAndClearedByReset :
    step (presenting { calibrated with status := 0#16 } 0x00040000#32) = .next calibrated ∧
    ({ calibrated with status := 0#16 } : State).flag .calValid = false ∧ calibrated.flag .calValid = true ∧
    step { sampled with inputs := [resetStim] } = .next State.reset := ⟨rfl, by decide, by decide, rfl⟩
theorem test_witness_StickyBitsFollowTheirCauses :
    step (presenting sampled 0x00030002#32) = .next (sampled.raise .illegalCommand) ∧
    step (presenting (sampled.raise .illegalCommand) 0x00060000#32) = .next (sampled.raise .illegalCommand).acknowledge :=
  ⟨rfl, rfl⟩
theorem test_witness_AtMostOneErrorBitIsSetPerStep :
    step (presenting State.reset 0x00040000#32) = .next (State.reset.raise .commitRejected) ∧
    State.reset.flag ErrorCause.commitRejected.bit = false ∧
    (State.reset.raise .commitRejected).flag ErrorCause.commitRejected.bit = true := ⟨rfl, by decide, by decide⟩
theorem test_witness_ErrOutputHoldsUntilAcknowledged :
    step (presenting State.reset 0x00040000#32) = .next (State.reset.raise .commitRejected) ∧
    State.reset.errO = false ∧ (State.reset.raise .commitRejected).errO = true ∧
    (presenting State.reset 0x00040000#32).nextError ≠ none ∧
    step (presenting (State.reset.raise .commitRejected) 0x00060000#32) =
      .next (State.reset.raise .commitRejected).acknowledge ∧
    (State.reset.raise .commitRejected).acknowledge.errO = false ∧
    (presenting (State.reset.raise .commitRejected) 0x00060000#32).presents .clrsts :=
  ⟨rfl, by decide, by decide, by decide, rfl, by decide, ⟨_, _, rfl, rfl, rfl, by decide⟩⟩
theorem test_witness_EveryStepKeepsTheInvariant :
    (presenting sampled 0x0001F800#32).Inv ∧
    step (presenting sampled 0x0001F800#32) = .next (sampled.setShMin 0xF800#16) :=
  ⟨⟨by decide, by decide, by decide, by decide, by decide, by decide, by decide⟩, rfl⟩
theorem test_witness_ReachableStatesMeetTheInvariant : Reachable State.reset := Reachable.start []
theorem test_witness_UncalibratedBlockHoldsTheSafeValue : Reachable State.reset ∧ State.reset.flag .calValid = false :=
  ⟨Reachable.start [], by decide⟩
theorem test_witness_NormNeverReadsTheShadows :
    calibrated.calMin = (calibrated.setShMin 0x1234#16).calMin ∧ calibrated.calMax = (calibrated.setShMin 0x1234#16).calMax ∧
    calibrated.cfg = (calibrated.setShMin 0x1234#16).cfg ∧
    calibrated.flag .calValid = (calibrated.setShMin 0x1234#16).flag .calValid ∧
    exec (.norm 0x0000#16) calibrated = .next (calibrated.normCalibrated Config.pDeadband 0x0000#16) ∧
    exec (.norm 0x0000#16) (calibrated.setShMin 0x1234#16) =
      .next ((calibrated.setShMin 0x1234#16).normCalibrated Config.pDeadband 0x0000#16) :=
  ⟨rfl, rfl, rfl, rfl, rfl, rfl⟩
/-- Two shadow writes and no COMMIT. -/
def shadowing : State :=
  { calibrated with inputs := [Stimulus.command 0x00010000#32, Stimulus.command 0x00030001#32] }
theorem test_witness_OneCalibrationBetweenCommits :
    Sys2Proof.core.run 2 shadowing = .next { calibrated with shMin := 0x0000#16, shCfg := 0x0001#16 } ∧
    (∀ x ∈ shadowing.inputs.take 2, x.keepsCalibration = true) ∧
    exec (.norm 0x0000#16) shadowing = .next (shadowing.normCalibrated Config.pDeadband 0x0000#16) :=
  ⟨rfl, by decide, rfl⟩
/-- The words of `CAL -32768, 32767, 1`. -/
def calWords : List CmdWord := [0x00018000#32, 0x00027FFF#32, 0x00030001#32, 0x00040000#32]
/-- The words of `CAL 5, 5, 0`. -/
def calEqualWords : List CmdWord := [0x00010005#32, 0x00020005#32, 0x00030000#32, 0x00040000#32]
theorem test_witness_CalPseudoInstructionInstallsTheBounds :
    assemble (.cal (.dec (-32768)) (.dec 32767) (some 1)) = some calWords ∧
    ({ State.reset with inputs := calWords.map Stimulus.command } : State).inputs = calWords.map Stimulus.command ++ [] ∧
    asmImmBits (.dec (-32768)) ≠ asmImmBits (.dec 32767) ∧
    assemble (.cal (.dec 5) (.hex 5) (some 0)) = some calEqualWords ∧
    ({ State.reset with inputs := calEqualWords.map Stimulus.command } : State).inputs =
      calEqualWords.map Stimulus.command ++ [] ∧
    asmImmBits (.dec 5) = asmImmBits (.hex 5) := by decide
theorem test_witness_ScaleIsTheFloorOfTheExactFraction :
    (-2048 : Int) ≠ 2048 ∧ min (-2048) 2048 ≤ (-2048 : Int) ∧ (-2048 : Int) ≤ max (-2048) 2048 ∧
    min (-2048) 2048 ≤ (2048 : Int) ∧ (2048 : Int) ≤ max (-2048) 2048 := by decide
theorem test_witness_DatapathOf24BitsOrMoreAgrees :
    24 ≤ 24 ∧ (0x8000#16 : Half) ≠ 0x7FFF#16 ∧
    min (0x8000#16 : Half).toInt (0x7FFF#16 : Half).toInt ≤ (0x7FFF#16 : Half).toInt ∧
    (0x7FFF#16 : Half).toInt ≤ max (0x8000#16 : Half).toInt (0x7FFF#16 : Half).toInt := by decide
theorem test_witness_DeadbandClampsBothEnds :
    (1 ≤ 1 ∧ 1 ≤ 127 ∧ 1 ≤ 1 ∧ 256 - 1 ≤ 255 ∧ (1 < 2 ∧ 2 < 256 - 1)) ∧
    (1 ≤ 127 ∧ 127 ≤ 127 ∧ 127 ≤ 127 ∧ 256 - 127 ≤ 129 ∧ (127 < 128 ∧ 128 < 256 - 127)) := by decide
theorem test_witness_NormEndpointsAreExact :
    calibrated.flag .calValid = true ∧ calibrated.calMin ≠ calibrated.calMax ∧
    exec (.norm 0xF800#16) calibrated = .next (calibrated.normCalibrated Config.pDeadband 0xF800#16) ∧
    (0xF800#16 : Half).toInt = calibrated.calMin.toInt ∧ (0x0800#16 : Half).toInt = calibrated.calMax.toInt ∧
    ((0xF7FF#16 : Half).toInt < calibrated.calMin.toInt ∧ calibrated.calMin.toInt < calibrated.calMax.toInt) ∧
    calibrated.calMax.toInt < (0x0801#16 : Half).toInt ∧
    calibrated.calMin.toInt = -2048 ∧ calibrated.calMax.toInt = 2048 ∧ calibrated.cfg.getLsbD 0 = false :=
  ⟨rfl, by decide, rfl, by decide, by decide, by decide, by decide, by decide, by decide, by decide⟩
/-- `calibrated` with the reverse bit: the effective bounds descend, from 2048 down to -2048. -/
def reversed : State := { calibrated with cfg := 0x0001#16 }
theorem test_witness_NormEndpointsAreExact_descending :
    reversed.flag .calValid = true ∧ reversed.calMin ≠ reversed.calMax ∧
    exec (.norm 0x0801#16) reversed = .next (reversed.normCalibrated Config.pDeadband 0x0801#16) ∧
    reversed.cfg.getLsbD 0 = true ∧
    (reversed.calMin.toInt < reversed.calMax.toInt ∧ reversed.calMax.toInt < (0x0801#16 : Half).toInt) ∧
    ((0xF7FF#16 : Half).toInt < reversed.calMin.toInt ∧ reversed.calMin.toInt < reversed.calMax.toInt) :=
  ⟨rfl, by decide, rfl, by decide, by decide, by decide⟩
theorem test_witness_NormOutputAvoidsTheDeadbands :
    exec (.norm 0x0000#16) calibrated = .next (calibrated.normCalibrated Config.pDeadband 0x0000#16) ∧
    calibrated.flag .calValid = true ∧ calibrated.calMin ≠ calibrated.calMax ∧
    exec (.norm 0x0064#16) State.reset = .next (State.reset.normUncalibrated 0x0064#16) ∧
    State.reset.flag .calValid = false := ⟨rfl, by decide, by decide, rfl, by decide⟩
theorem test_witness_NormIsMonotoneOverTriggerTravel :
    calibrated.flag .calValid = true ∧ calibrated.calMin ≠ calibrated.calMax ∧
    exec (.norm 0x8000#16) calibrated = .next (calibrated.normCalibrated Config.pDeadband 0x8000#16) ∧
    exec (.norm 0x7FFF#16) calibrated = .next (calibrated.normCalibrated Config.pDeadband 0x7FFF#16) ∧
    (calibrated.calMin.toInt < calibrated.calMax.toInt ∧ (0x8000#16 : Half).toInt ≤ (0x7FFF#16 : Half).toInt) ∧
    exec (.norm 0x7FFF#16) reversed = .next (reversed.normCalibrated Config.pDeadband 0x7FFF#16) ∧
    exec (.norm 0x8000#16) reversed = .next (reversed.normCalibrated Config.pDeadband 0x8000#16) ∧
    (reversed.calMin.toInt < reversed.calMax.toInt ∧ (0x8000#16 : Half).toInt ≤ (0x7FFF#16 : Half).toInt) :=
  ⟨rfl, by decide, rfl, rfl, by decide, rfl, rfl, by decide⟩
/-- The bounds of `reversed` exchanged, not reversed. -/
def exchanged : State := { calibrated with calMin := 0x0800#16, calMax := 0xF800#16 }
theorem test_witness_ReverseSwapsTheBounds :
    reversed.cfg.getLsbD 0 = true ∧ exchanged.cfg.getLsbD 0 = false ∧ reversed.calMin = exchanged.calMax ∧
    reversed.calMax = exchanged.calMin ∧ reversed.flag .calValid = exchanged.flag .calValid ∧
    exec (.norm 0x0001#16) reversed = .next (reversed.normCalibrated Config.pDeadband 0x0001#16) ∧
    exec (.norm 0x0001#16) exchanged = .next (exchanged.normCalibrated Config.pDeadband 0x0001#16) :=
  ⟨by decide, by decide, rfl, rfl, rfl, rfl, rfl⟩
theorem test_witness_ReadPortFollowsTheMap : 0xC#4 ≤ (0xC#4 : ReadIndex) ∧ 0xC#4 ≤ (0xF#4 : ReadIndex) := by decide
theorem test_witness_EveryStateBitIsVisible : ∀ a, sampled.readPort a = (presenting sampled 0#32).readPort a := fun _ => rfl
theorem test_witness_EffectsAreSeenFromTheNextStepOn :
    shadowing.inputs = Stimulus.command 0x00010000#32 :: Stimulus.command 0x00030001#32 :: [] ∧
    step shadowing = .next (shadowing.taken.setShMin 0x0000#16) := ⟨rfl, rfl⟩
theorem test_witness_MatchAndMaskDecideTheCommand :
    0x7#4 ≤ (0x00070000#32 : CmdWord).extractLsb' 16 4 ∧ 0x7#4 ≤ (0x000F0000#32 : CmdWord).extractLsb' 16 4 ∧
    (∀ r ∈ opTable, r.hits 0x00070000#32 = false) ∧ (⟨"NOP", 0#32, 0xFFFFFFFF#32⟩ : OpRow).hits 0x00000000#32 = true := by decide
theorem test_witness_SafeRunsNeverRaiseErrOutput :
    (presenting calibrated 0x00000000#32).errO = false ∧ State.SafeRun 1 (presenting calibrated 0x00000000#32) ∧
    Sys2Proof.core.run 1 (presenting calibrated 0x00000000#32) = .next calibrated :=
  ⟨by decide, ⟨rfl, fun _ _ => trivial⟩, rfl⟩
theorem test_witness_BothSpellingsOfAnImmediateAgree :
    ((-32769 : Int) < -32768 ∨ 32767 < (-32769 : Int)) ∧ ((32768 : Int) < -32768 ∨ 32767 < (32768 : Int)) ∧
    65536 ≤ 65536 := by decide

end Sys2Proof.Tests
end

section
/-! The ranges of the build-time parameters (R7), read off the types of their open indexes. -/

namespace Sys2Proof.Config

/-- Settles O3, from the bounds that the types of `deadbandIndex` and `noiseIndex` carry. -/
theorem parametersAreInTheirLegalRange : Obligations.ParametersAreInTheirLegalRange :=
  ⟨pDeadband_pos, pDeadband_le, pNoise_lt⟩

end Sys2Proof.Config
end

section
/-! Encoded words decode back to their commands (R56), whether formatted here or placed as table words. -/

namespace Sys2Proof

@[simp] theorem decode_formatWord (op : BitVec 4) (p : Half) : decode (formatWord op p) = decodeOp op p := by
  simp [decode]

/-- Decoding reads back every command with every operand (R56). -/
theorem decode_encode (i : Instr) : decode (encode i) = .ok i := by
  cases i with
  | wrcfg rev => cases rev <;> rfl
  | nop | wrmin _ | wrmax _ | commit | norm _ | clrsts => exact decode_formatWord _ _

/-- A command word is its own table word. -/
theorem tableWord_toNat (w : CmdWord) : tableWord 32 w.toNat = w := by
  rw [tableWord, Nat.mod_eq_of_lt w.isLt, BitVec.ofNat_toNat, BitVec.setWidth_eq]

end Sys2Proof
end

section
/-! The step told by its effect: that it completes, and one case per edge the block can take, read off
`step_next_cases` and `exec_next_cases`. -/

namespace Sys2Proof.Machine

theorem step_cons {s : State} {x : Stimulus} {rest : List Stimulus} (hs : s.inputs = x :: rest) :
    step s = clockEdge x { s with inputs := rest } := by
  simp only [step, hs]

theorem exec_completes (i : Instr) (s : State) : ∃ t, exec i s = .next t := by
  cases i <;> exact ⟨_, rfl⟩

theorem clockEdge_completes (x : Stimulus) (s : State) : ∃ t, clockEdge x s = .next t := by
  unfold clockEdge present
  split_ifs
  · exact ⟨_, rfl⟩
  · split
    · exact exec_completes _ _
    · exact ⟨_, rfl⟩
  · exact ⟨_, rfl⟩

theorem step_completes (s : State) : ∃ t, step s = .next t := by
  cases hs : s.inputs with
  | nil => exact ⟨s, by simp only [step, hs]⟩
  | cons x rest => rw [step_cons hs]; exact clockEdge_completes _ _

/-- `StepEffect s t`: a step of `s` can answer `t`, with what the host drives in that step (`hr`, `hi`, `hp`). -/
inductive StepEffect (s : State) : State → Prop where
  | idle (hr : ¬s.resets) (hi : ¬s.presentsIllegal) (hp : ∀ j, ¬s.presents j) : StepEffect s s.taken
  | reset (hr : s.resets) (hi : ¬s.presentsIllegal) (hp : ∀ j, ¬s.presents j) : StepEffect s s.taken.resetRegisters
  | illegal (hr : ¬s.resets) (hi : s.presentsIllegal) (hp : ∀ j, ¬s.presents j) :
      StepEffect s (s.taken.raise .illegalCommand)
  | nop (hr : ¬s.resets) (hi : ¬s.presentsIllegal) (hp : ∀ j, s.presents j ↔ j = .nop) : StepEffect s s.taken
  | wrmin (imm : Half) (hr : ¬s.resets) (hi : ¬s.presentsIllegal) (hp : ∀ j, s.presents j ↔ j = .wrmin imm) :
      StepEffect s (s.taken.setShMin imm)
  | wrmax (imm : Half) (hr : ¬s.resets) (hi : ¬s.presentsIllegal) (hp : ∀ j, s.presents j ↔ j = .wrmax imm) :
      StepEffect s (s.taken.setShMax imm)
  | wrcfg (rev : Bool) (hr : ¬s.resets) (hi : ¬s.presentsIllegal) (hp : ∀ j, s.presents j ↔ j = .wrcfg rev) :
      StepEffect s (s.taken.setShCfg (revPayload rev))
  | commitRejected (hr : ¬s.resets) (hi : ¬s.presentsIllegal) (hp : ∀ j, s.presents j ↔ j = .commit)
      (hsh : s.shMin = s.shMax) : StepEffect s (s.taken.raise .commitRejected)
  | commitAccepted (hr : ¬s.resets) (hi : ¬s.presentsIllegal) (hp : ∀ j, s.presents j ↔ j = .commit)
      (hsh : s.shMin ≠ s.shMax) : StepEffect s s.taken.installCalibration
  | normCalibrated (imm : Half) (hr : ¬s.resets) (hi : ¬s.presentsIllegal) (hp : ∀ j, s.presents j ↔ j = .norm imm)
      (hv : s.flag .calValid = true) : StepEffect s (s.taken.normCalibrated Config.pDeadband imm)
  | normUncalibrated (imm : Half) (hr : ¬s.resets) (hi : ¬s.presentsIllegal) (hp : ∀ j, s.presents j ↔ j = .norm imm)
      (hv : s.flag .calValid = false) : StepEffect s (s.taken.normUncalibrated imm)
  | clrsts (hr : ¬s.resets) (hi : ¬s.presentsIllegal) (hp : ∀ j, s.presents j ↔ j = .clrsts) :
      StepEffect s s.taken.acknowledge

theorem stepEffect_of_step {s t : State} (h : step s = .next t) : StepEffect s t := by
  rcases step_next_cases h with ⟨hr, hi, hp, rfl⟩ | ⟨hr, hi, hp, rfl⟩ | ⟨hr, hi, hp, rfl⟩ | ⟨i, hr, hi, hp, he⟩
  · exact .idle hr hi hp
  · exact .reset hr hi hp
  · exact .illegal hr hi hp
  · rcases exec_next_cases he with ⟨rfl, rfl⟩ | ⟨imm, rfl, rfl⟩ | ⟨imm, rfl, rfl⟩ | ⟨rev, rfl, rfl⟩ | ⟨rfl, hsh, rfl⟩ |
      ⟨rfl, hsh, rfl⟩ | ⟨imm, rfl, hv, rfl⟩ | ⟨imm, rfl, hv, rfl⟩ | ⟨rfl, rfl⟩
    · exact .nop hr hi hp
    · exact .wrmin imm hr hi hp
    · exact .wrmax imm hr hi hp
    · exact .wrcfg rev hr hi hp
    · exact .commitRejected hr hi hp hsh
    · exact .commitAccepted hr hi hp hsh
    · exact .normCalibrated imm hr hi hp hv
    · exact .normUncalibrated imm hr hi hp hv
    · exact .clrsts hr hi hp

/-- The command the host presents is the one that runs. -/
theorem exec_of_presents {s t : State} {i : Instr} (h : step s = .next t) (hp : s.presents i) :
    exec i s.taken = .next t := by
  rcases step_next_cases h with ⟨_, _, hn, _⟩ | ⟨_, _, hn, _⟩ | ⟨_, _, hn, _⟩ | ⟨j, _, _, hj, he⟩
  · exact absurd hp (hn i)
  · exact absurd hp (hn i)
  · exact absurd hp (hn i)
  · rwa [(hj i).mp hp]

theorem norm_of_presents {s t : State} {imm : Half} (h : step s = .next t) (hp : s.presents (.norm imm)) :
    t = s.taken.norm Config.pDeadband imm := by
  injection exec_of_presents h hp with h
  exact h.symm

theorem StepEffect.inputs_eq {s t : State} (h : StepEffect s t) : t.inputs = s.inputs.tail := by
  cases h <;> rfl

/-- Writing a flag keeps the reserved bits of STATUS (R27). -/
theorem State.reservedBit_setFlag (s : State) (b : StatusBit) (v : Bool) {n : Nat} (hn : 8 ≤ n) :
    (s.setFlag b v).status.getLsbD n = s.status.getLsbD n := by
  rw [State.status_bit_setFlag, if_neg (by have := b.index_lt; omega)]

/-- A reserved bit of STATUS is never set; only reset touches it (R27). -/
theorem StepEffect.reservedBit {s t : State} (h : StepEffect s t) {n : Nat} (hn : 8 ≤ n)
    (ht : t.status.getLsbD n = true) : s.status.getLsbD n = true := by
  cases h with
  | reset => simp at ht
  | illegal | commitRejected => exact (State.reservedBit_setFlag _ _ _ hn).symm.trans ht
  | commitAccepted => exact (State.reservedBit_setFlag _ .calValid _ hn).symm.trans ht
  | idle | nop | wrmin | wrmax | wrcfg => exact ht
  | normCalibrated | normUncalibrated | clrsts =>
    simpa [State.normCalibrated, State.normUncalibrated, State.setNormFlags, State.raise, State.acknowledge,
      State.reservedBit_setFlag, hn, -State.status_setFlag] using ht

end Sys2Proof.Machine
end

section
/-! The invariant of R32: kept by each update of the state, hence by every step, hence in every reachable state. -/

namespace Sys2Proof.Machine

variable {s t : State}

theorem State.Inv.taken (h : s.Inv) : s.taken.Inv := { h with }

/-- Reset establishes the invariant from any state (R33). -/
theorem State.inv_resetRegisters (s : State) : s.resetRegisters.Inv where
  boundsDiffer := by simp
  outRange := by simp [zext16]
  cfgReserved := by simp
  shCfgReserved := by simp
  statusReserved := by simp
  notBothBands := by simp
  outCalibrated := by simp

theorem State.Inv.setShMin (h : s.Inv) (v : Half) : (s.setShMin v).Inv := { h with }

theorem State.Inv.setShMax (h : s.Inv) (v : Half) : (s.setShMax v).Inv := { h with }

/-- `zext_16(rev)` has no reserved bit (R61). -/
theorem revPayload_reserved (rev : Bool) : (revPayload rev).extractLsb' 1 15 = 0#15 := by
  cases rev <;> rfl

theorem State.Inv.setShCfg (h : s.Inv) (rev : Bool) : (s.setShCfg (revPayload rev)).Inv :=
  { h with shCfgReserved := revPayload_reserved rev }

/-- Writing a flag keeps `STATUS[15:8] = 0`. -/
theorem statusReserved_setFlag (h : s.status.extractLsb' 8 8 = 0#8) (b : StatusBit) (v : Bool) :
    (s.setFlag b v).status.extractLsb' 8 8 = 0#8 := by
  rw [statusReserved_iff] at h ⊢
  intro n hn
  rw [State.reservedBit_setFlag s b v hn, h n hn]

/-- Raising an error writes only a sticky bit, which the invariant does not read (R77). -/
theorem State.Inv.raise (h : s.Inv) (e : ErrorCause) : (s.raise e).Inv :=
  { h with
    boundsDiffer := by cases e <;> exact fun hv => h.boundsDiffer (by simpa [ErrorCause.bit] using hv)
    statusReserved := statusReserved_setFlag h.statusReserved _ _
    notBothBands := by cases e <;> simpa [ErrorCause.bit] using h.notBothBands
    outCalibrated := by cases e <;> simpa [ErrorCause.bit] using h.outCalibrated }

/-- CLRSTS writes only the sticky bits (R74). -/
theorem State.Inv.acknowledge (h : s.Inv) : s.acknowledge.Inv :=
  { h with
    boundsDiffer := by simpa using h.boundsDiffer
    statusReserved :=
      statusReserved_setFlag (statusReserved_setFlag (statusReserved_setFlag h.statusReserved _ _) _ _) _ _
    notBothBands := by simpa using h.notBothBands
    outCalibrated := by simpa using h.outCalibrated }

/-- An accepted COMMIT sets CAL_VALID together with bounds it found different (R62). -/
theorem State.Inv.installCalibration (h : s.Inv) (hsh : s.shMin ≠ s.shMax) : s.installCalibration.Inv :=
  { h with
    boundsDiffer := fun _ => hsh
    cfgReserved := h.shCfgReserved
    statusReserved := statusReserved_setFlag h.statusReserved .calValid true
    notBothBands := by simpa using h.notBothBands
    outCalibrated := by simp }

/-- NORM's four bits keep `STATUS[15:8] = 0`. -/
theorem statusReserved_setNormFlags (h : s.status.extractLsb' 8 8 = 0#8) (o l d c : Bool) :
    (s.setNormFlags o l d c).status.extractLsb' 8 8 = 0#8 :=
  statusReserved_setFlag (statusReserved_setFlag (statusReserved_setFlag (statusReserved_setFlag h _ _) _ _) _ _) _ _

/-- The range and the band flags come from the deadband; OUT_VALID is set where CAL_VALID is (R64, R67). -/
theorem State.Inv.normCalibrated (h : s.Inv) (db : Nat) (imm : Half) (hv : s.flag .calValid = true) :
    (s.normCalibrated db imm).Inv :=
  { h with
    boundsDiffer := fun _ => h.boundsDiffer hv
    outRange := (s.toNat_normOut_normCalibrated db imm).trans_le (s.normResult_range db imm).1
    statusReserved := statusReserved_setNormFlags h.statusReserved _ _ _ _
    notBothBands := by simpa using (s.normResult_range db imm).2
    outCalibrated := by simp [hv] }

/-- Without calibration the placeholder 0 is stored and the four bits are cleared (R72). -/
theorem State.Inv.normUncalibrated (h : s.Inv) (imm : Half) : (s.normUncalibrated imm).Inv :=
  { h with
    boundsDiffer := by simpa using h.boundsDiffer
    outRange := by simp [zext16]
    statusReserved := statusReserved_setFlag (statusReserved_setNormFlags h.statusReserved _ _ _ _) _ _
    notBothBands := by simp
    outCalibrated := by simp }

theorem StepEffect.inv (he : StepEffect s t) (h : s.Inv) : t.Inv := by
  cases he with
  | idle | nop => exact h.taken
  | reset => exact State.inv_resetRegisters _
  | illegal | commitRejected => exact h.taken.raise _
  | wrmin imm => exact h.taken.setShMin imm
  | wrmax imm => exact h.taken.setShMax imm
  | wrcfg rev => exact h.taken.setShCfg rev
  | commitAccepted hr hi hp hsh => exact h.taken.installCalibration hsh
  | normCalibrated imm hr hi hp hv => exact h.taken.normCalibrated _ imm hv
  | normUncalibrated imm => exact h.taken.normUncalibrated imm
  | clrsts => exact h.taken.acknowledge

/-- Induction over runs from reset: what the reset state has and every step keeps, every reachable state has. -/
theorem Reachable.induction {P : State → Prop} (h0 : ∀ s : State, P s.resetRegisters)
    (hstep : ∀ s t, StepEffect s t → P s → P t) (hs : Reachable s) : P s := by
  induction hs with
  | start inputs => exact h0 { State.reset with inputs := inputs }
  | step s t _ hst ih => exact hstep s t (stepEffect_of_step hst) ih

/-- Settles O34: each effect of a step keeps the seven clauses. -/
theorem everyStepKeepsTheInvariant : Obligations.EveryStepKeepsTheInvariant :=
  fun _ _ h hst => (stepEffect_of_step hst).inv h

/-- Settles O33: the reset state is what reset makes of any state. -/
theorem resetMeetsTheInvariant : Obligations.ResetMeetsTheInvariant :=
  fun inputs => State.inv_resetRegisters { State.reset with inputs := inputs }

/-- Settles O35, by induction over the run from reset. -/
theorem reachableStatesMeetTheInvariant : Obligations.ReachableStatesMeetTheInvariant := by
  intro s hs
  obtain ⟨hb, ho, hc, hsc, hst, hbands, hov⟩ : s.Inv := hs.induction State.inv_resetRegisters fun _ _ he h => he.inv h
  exact ⟨hb, ho, hc, hsc, hst, hbands, hov⟩

/-- The safe state before the first accepted COMMIT: reset calibration, placeholder result (R33, R72, R99). -/
def State.SafeUntilCalibrated (s : State) : Prop :=
  s.flag .calValid = false →
    s.normOut = 0x0000#16 ∧ s.calMin = 0x0000#16 ∧ s.calMax = 0x0000#16 ∧ s.cfg = 0x0000#16 ∧ s.flag .outValid = false

/-- COMMIT and a calibrated NORM leave CAL_VALID = 1; every other effect keeps or restores the safe values. -/
theorem StepEffect.safeUntilCalibrated (he : StepEffect s t) (h : s.SafeUntilCalibrated) : t.SafeUntilCalibrated := by
  intro ht
  cases he with
  | idle | nop | wrmin | wrmax | wrcfg => exact h ht
  | reset => simp
  | commitAccepted => simp at ht
  | normCalibrated imm hr hi hp hv => simp [hv] at ht
  | normUncalibrated imm hr hi hp hv =>
    obtain ⟨-, hmin, hmax, hcfg, -⟩ := h hv
    simp [hmin, hmax, hcfg]
  | illegal | commitRejected | clrsts => simpa [ErrorCause.bit] using h (by simpa [ErrorCause.bit] using ht)

/-- Settles O36, by induction over the run from reset. -/
theorem uncalibratedBlockHoldsTheSafeValue : Obligations.UncalibratedBlockHoldsTheSafeValue :=
  fun _ hs => hs.induction (P := State.SafeUntilCalibrated) (fun _ _ => by simp)
    fun _ _ he h => he.safeUntilCalibrated h

end Sys2Proof.Machine
end

section
/-! The read port (R35, R37) and the outputs (R34, R84): what they show of the state. -/

namespace Sys2Proof.Machine

/-- DB_PARAM reads the deadband width in full (R24). -/
theorem State.toNat_readPort_dbParam (s : State) : (s.readPort 0x9#4).toNat = Config.pDeadband :=
  toNat_halfOfNat (by have := Config.pDeadband_le; omega)

/-- FULL_SCALE reads 256 (R26). -/
theorem State.readPort_fullScale (s : State) : s.readPort 0xA#4 = 0x0100#16 := rfl

/-- NOISE_PARAM reads the noise width in full (R25). -/
theorem State.toNat_readPort_noiseParam (s : State) : (s.readPort 0xB#4).toNat = Config.pNoise :=
  toNat_halfOfNat (by have := Config.pDeadband_le; have := Config.pNoise_lt; omega)

/-- Settles O48: the nine registers stand at indexes 0 to 8, and the other indexes read no state. -/
theorem everyStateBitIsVisible : Obligations.EveryStateBitIsVisible := by
  intro s t
  constructor
  · intro h
    cases t
    simp only [State.mk.injEq, and_true]
    exact ⟨h 0x3#4, h 0x4#4, h 0x5#4, h 0x6#4, h 0x7#4, h 0x8#4, h 0x1#4, h 0x2#4, h 0x0#4⟩
  · intro h a
    rw [← h]
    rfl

/-- Settles O49: each output is the register or bit the model names for it. -/
theorem outputsAreCopiesOfState : Obligations.OutputsAreCopiesOfState :=
  fun _ _ => ⟨rfl, rfl, rfl, rfl⟩

end Sys2Proof.Machine
end

section
/-! How a step comes about (R15, R34, R94): the presented word, completion, and reset. -/

namespace Sys2Proof.Machine

/-- Settles O11: with `rst = 0` and `cmd_valid = 1` the edge is `present`, and `present` runs what it decodes. -/
theorem stepRunsTheDecodedCommand : Obligations.StepRunsTheDecodedCommand := by
  intro s x rest i hs hr hv hd
  simp [step_cons hs, clockEdge, present, hr, hv, hd]

/-- Settles O12: the placed word is the command's encoding, and decoding reads it back. -/
theorem placedWordIsTheNextCommand : Obligations.PlacedWordIsTheNextCommand := by
  intro s i
  have hd : decode (tableWord 32 (encode i).toNat) = .ok i := by rw [tableWord_toNat, decode_encode]
  exact stepRunsTheDecodedCommand (s.withFetchWord 32 (encode i).toNat) _ s.inputs i rfl rfl rfl hd

/-- Settles O14: no edge faults or refuses, and none writes the list of driven signals. -/
theorem everyStepCompletes : Obligations.EveryStepCompletes := by
  intro s
  obtain ⟨t, ht⟩ := step_completes s
  exact ⟨t, ht, (stepEffect_of_step ht).inputs_eq⟩

/-- Settles O1: reset wins the edge, and its state has every register 0. -/
theorem resetStepZeroesEveryRegister : Obligations.ResetStepZeroesEveryRegister := by
  intro s x rest hs hr
  refine ⟨({ s with inputs := rest } : State).resetRegisters, by simp [step_cons hs, clockEdge, hr], ?_⟩
  simp [State.errO, State.toNat_readPort_dbParam, State.readPort_fullScale, State.toNat_readPort_noiseParam]

end Sys2Proof.Machine
end

section
/-! Who writes what (R14, R16 to R23) and the bits of STATUS over one step (R27 to R31): each statement compares the
state before a step with each effect the step can have. -/

namespace Sys2Proof.Machine

/-- Settles O26: only the case named in a clause writes its registers. -/
theorem registersChangeOnlyByTheirCommands : Obligations.RegistersChangeOnlyByTheirCommands := by
  intro s t hst
  cases stepEffect_of_step hst with
  | reset hr => simp [hr]
  | wrmin imm hr hi hp | wrmax imm hr hi hp | wrcfg rev hr hi hp => simp [hp]
  | commitAccepted hr hi hp hsh => simp [hp, hsh]
  | normCalibrated imm hr hi hp | normUncalibrated imm hr hi hp => simp [hp]
  | idle | nop | illegal | commitRejected | clrsts => simp

/-- Settles O28: a presented NORM is what runs, reset clears STATUS, and no other effect touches the four bits. -/
theorem resultBitsBelongToTheLastNorm : Obligations.ResultBitsBelongToTheLastNorm := by
  intro s t hst
  have he := stepEffect_of_step hst
  refine ⟨?calibrated, ?uncalibrated, ?reset, ?other, fun n hn => he.reservedBit hn⟩
  case calibrated =>
    intro imm hp hv
    have ht : t = s.taken.normCalibrated Config.pDeadband imm := (norm_of_presents hst hp).trans (if_pos hv)
    simp [ht]
  case uncalibrated =>
    intro imm hp hv
    have ht : t = s.taken.normUncalibrated imm := (norm_of_presents hst hp).trans (if_neg (by simp [hv]))
    simp [ht]
  case reset =>
    intro hr
    cases he with
    | reset => simp
    | _ => contradiction
  case other =>
    intro hr hn
    cases he with
    | reset => contradiction
    | normCalibrated imm hr hi hp | normUncalibrated imm hr hi hp => exact absurd ((hp _).mpr rfl) (hn imm)
    | idle | illegal | nop | wrmin | wrmax | wrcfg | commitRejected | commitAccepted | clrsts => simp [ErrorCause.bit]

/-- Settles O29: only an accepted COMMIT sets CAL_VALID, and only reset clears it. -/
theorem calValidIsSetByCommitAndClearedByReset : Obligations.CalValidIsSetByCommitAndClearedByReset := by
  intro s t hst
  cases stepEffect_of_step hst with
  | reset hr hi hp => simp [hr, hp]
  | commitAccepted hr hi hp hsh => simp [hp, hsh]
  | commitRejected hr hi hp hsh => simp [hr, hsh, ErrorCause.bit]
  | idle hr hi hp | illegal hr hi hp | nop hr hi hp | wrmin imm hr hi hp | wrmax imm hr hi hp | wrcfg rev hr hi hp
  | normCalibrated imm hr hi hp | normUncalibrated imm hr hi hp | clrsts hr hi hp => simp [hr, hp, ErrorCause.bit]

/-- Settles O30: each cause sets its own bit, CLRSTS and reset clear all three, and every other case keeps them. -/
theorem stickyBitsFollowTheirCauses : Obligations.StickyBitsFollowTheirCauses := by
  intro s t hst
  cases stepEffect_of_step hst with
  | reset hr hi hp => simp [hr, hi, hp]
  | clrsts hr hi hp => simp [hi, hp]
  | commitRejected hr hi hp hsh | commitAccepted hr hi hp hsh => simp [hr, hi, hp, hsh, ErrorCause.bit]
  | normCalibrated imm hr hi hp hv | normUncalibrated imm hr hi hp hv => simp [hr, hi, hp, hv]
  | idle hr hi hp | illegal hr hi hp | nop hr hi hp | wrmin imm hr hi hp | wrmax imm hr hi hp | wrcfg rev hr hi hp =>
    simp [hr, hi, hp, ErrorCause.bit]

end Sys2Proof.Machine
end

section
/-! The byte transport of command words (R40): bytes joined to a word and cut from it, little-endian. -/

namespace Sys2Proof

/-- Joining two bit strings weighs the left one by the width of the right one. -/
theorem toNat_append_eq_add {m n : Nat} (x : BitVec m) (y : BitVec n) :
    (x ++ y).toNat = x.toNat * 2 ^ n + y.toNat := by
  rw [BitVec.toNat_append, ← Nat.shiftLeft_add_eq_or_of_lt y.isLt, Nat.shiftLeft_eq]

theorem toNat_wordOfBytes (b0 b1 b2 b3 : Byte) :
    (wordOfBytes b0 b1 b2 b3).toNat = b0.toNat + 2 ^ 8 * b1.toNat + 2 ^ 16 * b2.toNat + 2 ^ 24 * b3.toNat := by
  simp only [wordOfBytes, toNat_append_eq_add]
  omega

/-- The four bytes cut from a word join to that word. -/
theorem wordOfBytes_extract (w : CmdWord) :
    wordOfBytes (w.extractLsb' 0 8) (w.extractLsb' 8 8) (w.extractLsb' 16 8) (w.extractLsb' 24 8) = w := by
  apply BitVec.eq_of_toNat_eq
  rw [toNat_wordOfBytes]
  simp only [BitVec.extractLsb'_toNat, Nat.shiftRight_eq_div_pow]
  have := w.isLt
  omega

theorem decodeBytes_of_decode {w : CmdWord} {i : Instr} (h : decode w = .ok i) (rest : List Byte) :
    decodeBytes (bytesOfWord w ++ rest) = .ok (i, rest) := by
  simp only [bytesOfWord, List.cons_append, List.nil_append, decodeBytes, wordOfBytes_extract, h]

/-- Fewer than four bytes carry no whole word (log entry 8). -/
theorem decodeBytes_truncated {bytes : List Byte} (h : bytes.length < 4) : decodeBytes bytes = .error .truncated := by
  match bytes, h with
  | [], _ | [_], _ | [_, _], _ | [_, _, _], _ => rfl
  | _ :: _ :: _ :: _ :: rest, h => simp only [List.length_cons] at h; omega

/-- Settles O9: the bytes cut from a command's word join to that word, and it decodes to the command. -/
theorem byteTransportIsLittleEndian : Obligations.ByteTransportIsLittleEndian :=
  ⟨toNat_wordOfBytes, fun i rest => decodeBytes_of_decode (decode_encode i) rest, fun _ h => decodeBytes_truncated h⟩

end Sys2Proof
end

section
/-! The signals a step does not look at (R38, R94, R103) and what it shows of the state (R37, R98). -/

namespace Sys2Proof.Machine

theorem clockEdge_of_rst {x : Stimulus} (hr : x.rst = true) (s : State) : clockEdge x s = .next s.resetRegisters :=
  if_pos hr

theorem clockEdge_of_idle {x : Stimulus} (hr : x.rst = false) (hv : x.cmdValid = false) (s : State) :
    clockEdge x s = .next s := by
  simp [clockEdge, hr, hv]

/-- Settles O16: the edge does not look at `rd_addr`, reset answers the reset state whatever is presented, and without
`cmd_valid` the edge is a reset or idle. -/
theorem ignoredSignalsDoNotMatter : Obligations.IgnoredSignalsDoNotMatter := by
  intro s rest r v v' w w' a a'
  simp only [step]
  refine ⟨rfl, ?noCommand, ?reset⟩
  case noCommand =>
    cases r with
    | true => rw [clockEdge_of_rst rfl, clockEdge_of_rst rfl]
    | false => rw [clockEdge_of_idle rfl rfl, clockEdge_of_idle rfl rfl]
  case reset => rw [clockEdge_of_rst rfl, clockEdge_of_rst rfl]

theorem regAt_reserved : ∀ a : ReadIndex, 0xC#4 ≤ a → regAt a = none := by decide

/-- A reserved index reads as 0x0000 (R39). -/
theorem State.readPort_reserved (s : State) {a : ReadIndex} (h : 0xC#4 ≤ a) : s.readPort a = 0x0000#16 := by
  simp only [State.readPort, regAt_reserved a h]

/-- Settles O47: the registers stand at their indexes by the map, the parameters read in full, and the reserved indexes
name no register. -/
theorem readPortFollowsTheMap : Obligations.ReadPortFollowsTheMap :=
  fun s => ⟨rfl, rfl, rfl, rfl, rfl, rfl, rfl, rfl, rfl, s.toNat_readPort_dbParam,
    congrArg BitVec.toNat s.readPort_fullScale, s.toNat_readPort_noiseParam, fun _ h => s.readPort_reserved h⟩

theorem State.observed_cons {s : State} {x : Stimulus} {rest : List Stimulus} (hs : s.inputs = x :: rest) :
    s.observed = some (s.outputs x.rdAddr) := by
  simp only [State.observed, hs]

/-- Settles O50: the host sees the state it drives, and a step moves the driven signals on by one. -/
theorem effectsAreSeenFromTheNextStepOn : Obligations.EffectsAreSeenFromTheNextStepOn := by
  intro s t x y rest hs hst
  have ht : t.inputs = y :: rest := by rw [(stepEffect_of_step hst).inputs_eq, hs, List.tail_cons]
  exact ⟨State.observed_cons hs, State.observed_cons ht⟩

end Sys2Proof.Machine
end

section
/-! One calibration between COMMITs (R45, R63, R97): every step that is neither a reset nor a COMMIT keeps what NORM
reads, hence so does every run of such steps. -/

namespace Sys2Proof.Machine

variable {s t u : State}

/-- `s` and `t` agree on all that NORM reads of the state (R63). -/
structure State.SameCalibration (s t : State) : Prop where
  calMin : t.calMin = s.calMin
  calMax : t.calMax = s.calMax
  cfg : t.cfg = s.cfg
  calValid : t.flag .calValid = s.flag .calValid

theorem State.SameCalibration.refl (s : State) : s.SameCalibration s := ⟨rfl, rfl, rfl, rfl⟩

theorem State.SameCalibration.trans (h : s.SameCalibration t) (h' : t.SameCalibration u) : s.SameCalibration u :=
  ⟨h'.calMin.trans h.calMin, h'.calMax.trans h.calMax, h'.cfg.trans h.cfg, h'.calValid.trans h.calValid⟩

/-- The host drives neither `rst = 1` nor a COMMIT in a step that keeps the calibration. -/
theorem not_resets_not_presents_commit (h : ∀ x ∈ s.inputs.take 1, x.keepsCalibration = true) :
    ¬s.resets ∧ ¬s.presents .commit := by
  constructor
  · rintro ⟨x, rest, hs, hr⟩
    have hx : x.keepsCalibration = true := h x (by simp [hs])
    simp [Stimulus.keepsCalibration, hr] at hx
  · rintro ⟨x, rest, hs, hr, hv, hd⟩
    have hx : x.keepsCalibration = true := h x (by simp [hs])
    simp [Stimulus.keepsCalibration, commandKeepsCalibration, hr, hv, hd] at hx

theorem StepEffect.sameCalibration (he : StepEffect s t) (hr : ¬s.resets) (hc : ¬s.presents .commit) :
    s.SameCalibration t := by
  cases he with
  | reset => contradiction
  | commitAccepted _ _ hp => exact absurd ((hp _).mpr rfl) hc
  | idle | nop | wrmin | wrmax | wrcfg | illegal | commitRejected | normCalibrated | normUncalibrated | clrsts =>
    constructor <;> simp [ErrorCause.bit]

/-- A run of `n + 1` steps is one step and a run of `n`. -/
theorem run_succ {n : Nat} (h : Sys2Proof.core.run (n + 1) s = .next t) :
    ∃ u, step s = .next u ∧ Sys2Proof.core.run n u = .next t := by
  obtain ⟨u, hu⟩ := step_completes s
  have hcore : Sys2Proof.core.step s = .next u := hu
  simp only [Host.Core.run, hcore] at h
  exact ⟨u, hu, h⟩

/-- The calibration is kept along every run without COMMIT and reset (R45). -/
theorem run_sameCalibration {n : Nat} (h : Sys2Proof.core.run n s = .next t)
    (hk : ∀ x ∈ s.inputs.take n, x.keepsCalibration = true) : s.SameCalibration t := by
  induction n generalizing s with
  | zero =>
    injection h with h
    exact h ▸ .refl s
  | succ n ih =>
    obtain ⟨u, hu, hrun⟩ := run_succ h
    have he : StepEffect s u := stepEffect_of_step hu
    obtain ⟨hr, hc⟩ := not_resets_not_presents_commit fun x hx => hk x (List.take_subset_take_left _ (Nat.le_add_left 1 n) hx)
    have hrest : ∀ x ∈ u.inputs.take n, x.keepsCalibration = true := by
      intro x hx
      rw [he.inputs_eq, ← Nat.add_sub_cancel (n := n) (m := 1), ← List.tail_take_eq_take_tail] at hx
      exact hk x (List.mem_of_mem_tail hx)
    exact (he.sameCalibration hr hc).trans (ih hrun hrest)

/-- NORM_OUT after a NORM: the result of R64, or the placeholder of R72. -/
theorem State.normOut_norm (s : State) (db : Nat) (imm : Half) :
    (s.norm db imm).normOut = if s.flag .calValid then halfOfNat (s.normResult db imm).value else 0x0000#16 := by
  unfold State.norm
  split_ifs <;> rfl

theorem State.SameCalibration.normOut_norm (h : s.SameCalibration t) (db : Nat) (imm : Half) :
    (t.norm db imm).normOut = (s.norm db imm).normOut := by
  rw [State.normOut_norm, State.normOut_norm, h.calValid, State.normResult_congr db imm h.calMin h.calMax h.cfg]

/-- Settles O38, by induction over the run. -/
theorem oneCalibrationBetweenCommits : Obligations.OneCalibrationBetweenCommits := by
  intro n s t hrun hk
  have h : s.SameCalibration t := run_sameCalibration hrun hk
  refine ⟨h.calMin, h.calMax, h.cfg, h.calValid, ?_⟩
  intro imm s' t' hs' ht'
  injection hs' with hs'
  injection ht' with ht'
  rw [← hs', ← ht', h.normOut_norm]

end Sys2Proof.Machine
end

section
/-! The decoder inverted: a word decodes to a command exactly when it is that command's word (R49 to R56). -/

namespace Sys2Proof

/-- The opcodes of R51: seven are defined, 0x7..0xF are reserved. -/
theorem op_cases (op : BitVec 4) :
    0x7#4 ≤ op ∨ op = 0x0#4 ∨ op = 0x1#4 ∨ op = 0x2#4 ∨ op = 0x3#4 ∨ op = 0x4#4 ∨ op = 0x5#4 ∨ op = 0x6#4 := by
  revert op
  decide

theorem decodeOp_reserved {op : BitVec 4} (h : 0x7#4 ≤ op) (p : Half) : decodeOp op p = .error .reservedOpcode := by
  obtain ⟨k, hk⟩ : ∃ k, op.toNat = k + 7 := Nat.exists_eq_add_of_le' h
  simp only [decodeOp, hk]

theorem noPayload_eq_ok_iff {p : Half} {i j : Instr} : noPayload p i = .ok j ↔ p = 0#16 ∧ i = j := by
  unfold noPayload
  split_ifs with h <;> simp [h]

/-- `zext_16` of bit 0 of a payload (R52). -/
theorem toNat_revPayload_getLsbD_zero (p : Half) : (revPayload (p.getLsbD 0)).toNat = p.toNat % 2 := by
  unfold revPayload
  rcases Nat.mod_two_eq_zero_or_one p.toNat with h | h <;> simp [BitVec.getLsbD, Nat.testBit_zero, h]

/-- Bits 15:1 of a payload are 0 exactly when it is less than 2 (R53). -/
theorem payload_reserved_iff_div (p : Half) : p.extractLsb' 1 15 = 0#15 ↔ p.toNat / 2 = 0 := by
  have hp := p.isLt
  rw [← BitVec.toNat_inj, BitVec.extractLsb'_toNat, Nat.shiftRight_eq_div_pow, BitVec.toNat_ofNat]
  omega

/-- Bits 15:1 of a payload are 0 exactly when it is `zext_16` of its bit 0 (R52). -/
theorem payload_reserved_iff (p : Half) : p.extractLsb' 1 15 = 0#15 ↔ p = revPayload (p.getLsbD 0) := by
  rw [payload_reserved_iff_div, ← BitVec.toNat_inj, toNat_revPayload_getLsbD_zero]
  omega

theorem revOfPayload_eq_ok_iff {p : Half} {i : Instr} :
    revOfPayload p = .ok i ↔ p = revPayload (p.getLsbD 0) ∧ .wrcfg (p.getLsbD 0) = i := by
  rw [← payload_reserved_iff]
  unfold revOfPayload
  split_ifs with h <;> simp [h]

/-- The opcode map answers a command for that command's opcode and payload alone (R51, R53). -/
theorem formatWord_of_decodeOp {op : BitVec 4} {p : Half} {i : Instr} (h : decodeOp op p = .ok i) :
    formatWord op p = encode i := by
  rcases op_cases op with hop | rfl | rfl | rfl | rfl | rfl | rfl | rfl
  · rw [decodeOp_reserved hop] at h; contradiction
  · obtain ⟨rfl, rfl⟩ := noPayload_eq_ok_iff.mp h; rfl
  · injection h with h; subst h; rfl
  · injection h with h; subst h; rfl
  · obtain ⟨hp, rfl⟩ := revOfPayload_eq_ok_iff.mp h; exact congrArg (formatWord 0x3#4) hp
  · obtain ⟨rfl, rfl⟩ := noPayload_eq_ok_iff.mp h; rfl
  · injection h with h; subst h; rfl
  · obtain ⟨rfl, rfl⟩ := noPayload_eq_ok_iff.mp h; rfl

theorem encode_of_decode {w : CmdWord} {i : Instr} (h : decode w = .ok i) : encode i = w := by
  unfold decode at h
  split_ifs at h with hr
  rw [← formatWord_of_decodeOp h, formatWord_fields hr]

/-- Settles O4: `decode_encode` one way, and the inversion of the opcode map the other. -/
theorem decodeAndEncodeAreInverse : Obligations.DecodeAndEncodeAreInverse :=
  ⟨fun i => ⟨by cases i <;> rfl, decode_encode i⟩, fun _ _ h => encode_of_decode h⟩

theorem decode_eq_ok_iff {w : CmdWord} {i : Instr} : decode w = .ok i ↔ w = encode i :=
  ⟨fun h => (encode_of_decode h).symm, fun h => h ▸ decode_encode i⟩

end Sys2Proof
end

section
/-! The map of R56, read on the number of the word. -/

namespace Sys2Proof

theorem toOption_noPayload (p : Half) (i : Instr) :
    (noPayload p i).toOption = if p.toNat = 0 then some i else none := by
  have hp : p = 0#16 ↔ p.toNat = 0 := BitVec.toNat_inj.symm
  simp only [noPayload, hp]
  split_ifs <;> rfl

theorem toOption_revOfPayload (p : Half) :
    (revOfPayload p).toOption = if p.toNat / 2 = 0 then some (.wrcfg (p.toNat % 2 == 1)) else none := by
  have hbit : p.getLsbD 0 = (p.toNat % 2 == 1) := Nat.testBit_zero p.toNat
  simp only [revOfPayload, payload_reserved_iff_div, hbit]
  split_ifs <;> rfl

/-- Settles O5: the fields of a word are the digits the map reads, and each opcode answers as its row says. -/
theorem decodeIsTheMapOfTheSpec : Obligations.DecodeIsTheMapOfTheSpec := by
  intro w
  simp only [← rsvField_toNat, ← opField_toNat, ← payloadField_toNat, BitVec.ofNat_toNat, BitVec.setWidth_eq, decode]
  generalize rsvField w = rsv
  generalize opField w = op
  generalize payloadField w = p
  by_cases hr : rsv = 0#12
  case neg =>
    have hn : rsv.toNat ≠ 0 := fun h => hr (BitVec.toNat_inj.mp h)
    rw [if_neg hr, if_pos hn]
    rfl
  case pos =>
    subst hr
    rcases op_cases op with hop | rfl | rfl | rfl | rfl | rfl | rfl | rfl
    · obtain ⟨k, hk⟩ : ∃ k, op.toNat = k + 7 := Nat.exists_eq_add_of_le' hop
      rw [decodeOp_reserved hop, hk]
      rfl
    · exact toOption_noPayload p _
    · rfl
    · rfl
    · exact toOption_revOfPayload p
    · exact toOption_noPayload p _
    · rfl
    · exact toOption_noPayload p _

end Sys2Proof
end

section
/-! The three conditions of R54, on the fields of the word and by the word check. -/

namespace Sys2Proof

/-- A payload bit that R53 reserves for the opcode is set (third condition of R54). -/
def ReservedPayloadSet (op : BitVec 4) (p : Half) : Prop :=
  ((op = 0x0#4 ∨ op = 0x4#4 ∨ op = 0x6#4) ∧ p ≠ 0#16) ∨ (op = 0x3#4 ∧ p.extractLsb' 1 15 ≠ 0#15)

theorem noPayload_error_iff (p : Half) (i : Instr) : (∃ e, noPayload p i = .error e) ↔ p ≠ 0#16 := by
  unfold noPayload
  split_ifs with h <;> simp [h]

theorem revOfPayload_error_iff (p : Half) : (∃ e, revOfPayload p = .error e) ↔ p.extractLsb' 1 15 ≠ 0#15 := by
  unfold revOfPayload
  split_ifs with h <;> simp [h]

theorem decodeOp_error_iff (op : BitVec 4) (p : Half) :
    (∃ e, decodeOp op p = .error e) ↔ 0x7#4 ≤ op ∨ ReservedPayloadSet op p := by
  rcases op_cases op with hop | rfl | rfl | rfl | rfl | rfl | rfl | rfl
  · simp [decodeOp_reserved, hop]
  · exact (noPayload_error_iff p .nop).trans (by simp [ReservedPayloadSet])
  · simp [ReservedPayloadSet, decodeOp]
  · simp [ReservedPayloadSet, decodeOp]
  · exact (revOfPayload_error_iff p).trans (by simp [ReservedPayloadSet])
  · exact (noPayload_error_iff p .commit).trans (by simp [ReservedPayloadSet])
  · simp [ReservedPayloadSet, decodeOp]
  · exact (noPayload_error_iff p .clrsts).trans (by simp [ReservedPayloadSet])

theorem decode_error_iff (w : CmdWord) :
    (∃ e, decode w = .error e) ↔
      rsvField w ≠ 0#12 ∨ 0x7#4 ≤ opField w ∨ ReservedPayloadSet (opField w) (payloadField w) := by
  rw [← decodeOp_error_iff]
  unfold decode
  split_ifs with h <;> simp [h]

theorem rsvClear_eq_false_iff (w : CmdWord) : rsvClear w = false ↔ rsvField w ≠ 0#12 := by
  rw [ne_eq, ← BitVec.toNat_inj, rsvField_toNat]
  simp [rsvClear]

theorem opDefined_eq_false_iff (w : CmdWord) : opDefined w = false ↔ 0x7#4 ≤ opField w := by
  rw [BitVec.le_def, opField_toNat]
  simp [opDefined]

theorem payloadClear_eq_false_iff (w : CmdWord) :
    payloadClear w = false ↔ ReservedPayloadSet (opField w) (payloadField w) := by
  simp only [payloadClear, ReservedPayloadSet, ne_eq, payload_reserved_iff_div]
  simp only [← BitVec.toNat_inj, opField_toNat, payloadField_toNat, BitVec.toNat_ofNat, Bool.or_eq_true, beq_iff_eq]
  split_ifs
  · rw [beq_eq_false_iff_ne]; omega
  · rw [beq_eq_false_iff_ne]; omega
  · rw [false_iff]; omega

/-- The word check refuses a word when one of its three parts does. -/
theorem legalWord_eq_false_iff (w : CmdWord) :
    legalWord w = false ↔ rsvClear w = false ∨ opDefined w = false ∨ payloadClear w = false := by
  simp only [legalWord, Bool.and_eq_false_iff, or_assoc]

/-- Bits 15:1 of a word are those of its payload. -/
theorem extractLsb'_payloadField (w : CmdWord) : (payloadField w).extractLsb' 1 15 = w.extractLsb' 1 15 := by
  rw [← BitVec.toNat_inj, BitVec.extractLsb'_toNat, BitVec.extractLsb'_toNat, payloadField_toNat,
    Nat.shiftRight_eq_div_pow, Nat.shiftRight_eq_div_pow]
  omega

/-- Settles O7: both sides are the three conditions on the fields of the word. -/
theorem illegalWordsAreThoseOfTheThreeConditions : Obligations.IllegalWordsAreThoseOfTheThreeConditions := by
  intro w
  constructor
  · rw [decode_error_iff, ReservedPayloadSet, extractLsb'_payloadField]
    rfl
  · rw [decode_error_iff, legalWord_eq_false_iff, rsvClear_eq_false_iff, opDefined_eq_false_iff,
      payloadClear_eq_false_iff]

end Sys2Proof
end

section
/-! The number of legal words (R54): they are the encodings of the commands, and a command is its operand. -/

namespace Sys2Proof

theorem encode_injective : Function.Injective encode := by
  intro i j h
  have hd : Except.ok (ε := DecodeReject) i = .ok j := by rw [← decode_encode i, h, decode_encode j]
  exact Except.ok.inj hd

/-- The operands of the commands: 16 bits for three of them, one bit for WRCFG, none for the other three. -/
abbrev Operand : Type := (Half ⊕ Half ⊕ Half) ⊕ Bool ⊕ Unit ⊕ Unit ⊕ Unit

def Instr.operand : Instr → Operand
  | .wrmin imm => .inl (.inl imm)
  | .wrmax imm => .inl (.inr (.inl imm))
  | .norm imm => .inl (.inr (.inr imm))
  | .wrcfg rev => .inr (.inl rev)
  | .nop => .inr (.inr (.inl ()))
  | .commit => .inr (.inr (.inr (.inl ())))
  | .clrsts => .inr (.inr (.inr (.inr ())))

def Operand.command : Operand → Instr
  | .inl (.inl imm) => .wrmin imm
  | .inl (.inr (.inl imm)) => .wrmax imm
  | .inl (.inr (.inr imm)) => .norm imm
  | .inr (.inl rev) => .wrcfg rev
  | .inr (.inr (.inl ())) => .nop
  | .inr (.inr (.inr (.inl ()))) => .commit
  | .inr (.inr (.inr (.inr ()))) => .clrsts

/-- Each command is one operand, in the summand of its opcode. -/
def instrEquivOperand : Instr ≃ Operand where
  toFun := Instr.operand
  invFun := Operand.command
  left_inv i := by cases i <;> rfl
  right_inv := by rintro ((imm | imm | imm) | rev | _ | _ | _) <;> rfl

theorem card_half : Fintype.card Half = 65536 := by
  rw [Fintype.card_congr BitVec.equivFin.toEquiv, Fintype.card_fin]
  rfl

theorem card_instr : Nat.card Instr = 196613 := by
  rw [Nat.card_congr instrEquivOperand]
  simp [Operand, card_half]

/-- Settles O8: the legal words are the encodings, one for each command. -/
theorem legalWordCountIs196613 : Obligations.LegalWordCountIs196613 := by
  have hrange : ∀ w, (∃ i, decode w = .ok i) ↔ w ∈ Set.range encode :=
    fun w => exists_congr fun i => decode_eq_ok_iff.trans eq_comm
  calc
    _ = Nat.card (Set.range encode) := Nat.card_congr (Equiv.subtypeEquivRight hrange)
    _ = Nat.card Instr := Nat.card_range_of_injective encode_injective
    _ = 196613 := card_instr

end Sys2Proof
end

section
/-! Match and mask (R51): a row of the table is decided field by field, since a mask keeps or clears each field. -/

namespace Sys2Proof

theorem eq_formatWord_iff {w : CmdWord} {op : BitVec 4} {p : Half} :
    w = formatWord op p ↔ rsvField w = 0#12 ∧ opField w = op ∧ payloadField w = p := by
  constructor
  · rintro rfl
    simp
  · rintro ⟨hr, rfl, rfl⟩
    exact (formatWord_fields hr).symm

/-- The three fields of a word under a mask that keeps `cmd[31:16]`. -/
theorem and_mask_eq_iff {w mask : CmdWord} (hr : rsvField mask = BitVec.allOnes 12)
    (ho : opField mask = BitVec.allOnes 4) (op : BitVec 4) :
    w &&& mask = formatWord op 0#16 ↔
      rsvField w = 0#12 ∧ opField w = op ∧ payloadField w &&& payloadField mask = 0#16 := by
  rw [eq_formatWord_iff]
  unfold rsvField opField payloadField at *
  rw [BitVec.extractLsb'_and, BitVec.extractLsb'_and, BitVec.extractLsb'_and, hr, ho, BitVec.and_allOnes,
    BitVec.and_allOnes]

/-- The rows without an operand compare the whole word. -/
theorem matches_iff_of_bare (w : CmdWord) (i : Instr) : w &&& 0xFFFFFFFF#32 = encode i ↔ decode w = .ok i := by
  rw [decode_eq_ok_iff, show 0xFFFFFFFF#32 = BitVec.allOnes 32 from rfl, BitVec.and_allOnes]

/-- The rows with a 16-bit operand compare the upper half, and the lower half is the operand. -/
theorem matches_iff_of_imm {i : Half → Instr} {op : BitVec 4} (hi : ∀ imm, encode (i imm) = formatWord op imm)
    (w : CmdWord) : w &&& 0xFFFF0000#32 = formatWord op 0#16 ↔ decode w = .ok (i (payloadField w)) := by
  rw [and_mask_eq_iff rfl rfl, decode_eq_ok_iff, hi, eq_formatWord_iff]
  have hp : payloadField w &&& payloadField 0xFFFF0000#32 = 0#16 := BitVec.and_zero
  simp only [hp]

theorem and_FFFE_eq_zero_iff (p : Half) : p &&& 0xFFFE#16 = 0#16 ↔ p.extractLsb' 1 15 = 0#15 := by
  constructor
  · intro h
    have h1 := congrArg (BitVec.extractLsb' 1 15) h
    rwa [BitVec.extractLsb'_and, show (0xFFFE#16).extractLsb' 1 15 = BitVec.allOnes 15 from rfl,
      BitVec.and_allOnes] at h1
  · intro h
    rw [(payload_reserved_iff p).mp h]
    cases p.getLsbD 0 <;> rfl

/-- The row of WRCFG leaves bit 0 free. -/
theorem matches_iff_of_wrcfg (w : CmdWord) :
    w &&& 0xFFFFFFFE#32 = 0x00030000#32 ↔ decode w = .ok (.wrcfg (w.getLsbD 0)) := by
  have hbit : (payloadField w).getLsbD 0 = w.getLsbD 0 := by simp [payloadField]
  have hmask : payloadField 0xFFFFFFFE#32 = 0xFFFE#16 := rfl
  rw [show 0x00030000#32 = formatWord 0x3#4 0#16 from rfl, and_mask_eq_iff rfl rfl, hmask, and_FFFE_eq_zero_iff,
    payload_reserved_iff, hbit, decode_eq_ok_iff]
  exact eq_formatWord_iff.symm

/-- A row that matches a word names the command it decodes to. -/
theorem decode_of_hits {r : OpRow} (hr : r ∈ opTable) {w : CmdWord} (h : r.hits w = true) :
    ∃ i, decode w = .ok i ∧ i.mnemonic = r.mnemonic := by
  have hw : w &&& r.mask = r.matchBits := beq_iff_eq.mp h
  simp only [opTable, List.mem_cons, List.not_mem_nil, or_false] at hr
  rcases hr with rfl | rfl | rfl | rfl | rfl | rfl | rfl
  · exact ⟨_, (matches_iff_of_bare w .nop).mp hw, rfl⟩
  · exact ⟨_, (matches_iff_of_imm (i := .wrmin) (fun _ => rfl) w).mp hw, rfl⟩
  · exact ⟨_, (matches_iff_of_imm (i := .wrmax) (fun _ => rfl) w).mp hw, rfl⟩
  · exact ⟨_, (matches_iff_of_wrcfg w).mp hw, rfl⟩
  · exact ⟨_, (matches_iff_of_bare w .commit).mp hw, rfl⟩
  · exact ⟨_, (matches_iff_of_imm (i := .norm) (fun _ => rfl) w).mp hw, rfl⟩
  · exact ⟨_, (matches_iff_of_bare w .clrsts).mp hw, rfl⟩

theorem formatWord_and_immMask (op : BitVec 4) (imm : Half) :
    formatWord op imm &&& 0xFFFF0000#32 = formatWord op 0#16 :=
  (and_mask_eq_iff rfl rfl op).mpr ⟨rsvField_formatWord op imm, opField_formatWord op imm, BitVec.and_zero⟩

/-- Some row matches the word of every command. -/
theorem exists_hits_encode (i : Instr) : ∃ r ∈ opTable, r.hits (encode i) = true := by
  cases i with
  | nop => exact ⟨opTable[0], List.getElem_mem _, rfl⟩
  | wrmin imm => exact ⟨opTable[1], List.getElem_mem _, beq_iff_eq.mpr (formatWord_and_immMask 0x1#4 imm)⟩
  | wrmax imm => exact ⟨opTable[2], List.getElem_mem _, beq_iff_eq.mpr (formatWord_and_immMask 0x2#4 imm)⟩
  | wrcfg rev => exact ⟨opTable[3], List.getElem_mem _, by cases rev <;> rfl⟩
  | commit => exact ⟨opTable[4], List.getElem_mem _, rfl⟩
  | norm imm => exact ⟨opTable[5], List.getElem_mem _, beq_iff_eq.mpr (formatWord_and_immMask 0x5#4 imm)⟩
  | clrsts => exact ⟨opTable[6], List.getElem_mem _, rfl⟩

theorem opTable_mnemonic_inj : ∀ r ∈ opTable, ∀ q ∈ opTable, r.mnemonic = q.mnemonic → r = q := by decide

/-- Two rows that match one word name the one command it decodes to. -/
theorem opTable_hits_unique {r q : OpRow} (hr : r ∈ opTable) (hq : q ∈ opTable) {w : CmdWord} (hrw : r.hits w = true)
    (hqw : q.hits w = true) : r = q := by
  obtain ⟨i, hi, hir⟩ := decode_of_hits hr hrw
  obtain ⟨j, hj, hjq⟩ := decode_of_hits hq hqw
  have hij : i = j := Except.ok.inj (hi.symm.trans hj)
  exact opTable_mnemonic_inj r hr q hq (by rw [← hir, ← hjq, hij])

/-- A word is illegal exactly when no row matches it. -/
theorem no_hits_iff (w : CmdWord) : (∀ r ∈ opTable, r.hits w = false) ↔ ∃ e, decode w = .error e := by
  constructor
  · intro h
    cases hd : decode w with
    | error e => exact ⟨e, rfl⟩
    | ok i =>
      obtain ⟨r, hr, hit⟩ := exists_hits_encode i
      rw [encode_of_decode hd, h r hr] at hit
      contradiction
  · rintro ⟨e, he⟩ r hr
    by_contra hit
    obtain ⟨i, hi, -⟩ := decode_of_hits hr (Bool.of_not_eq_false hit)
    rw [he] at hi
    contradiction

/-- Settles O6: the seven rows one by one, the reserved opcodes as a condition of R54, and the table as a whole. -/
theorem matchAndMaskDecideTheCommand : Obligations.MatchAndMaskDecideTheCommand := fun w =>
  ⟨matches_iff_of_bare w .nop, matches_iff_of_imm (i := .wrmin) (fun _ => rfl) w,
    matches_iff_of_imm (i := .wrmax) (fun _ => rfl) w, matches_iff_of_wrcfg w, matches_iff_of_bare w .commit,
    matches_iff_of_imm (i := .norm) (fun _ => rfl) w, matches_iff_of_bare w .clrsts,
    fun h => (decode_error_iff w).mpr (.inr (.inl h)), no_hits_iff w,
    fun _ hr _ hq hrw hqw => opTable_hits_unique hr hq hrw hqw⟩

end Sys2Proof
end

section
/-! Operands in assembler text (R57): the range of each spelling, and the word of a line whose operand is in range. -/

namespace Sys2Proof.Machine

theorem asmImmOk_dec_iff (v : Int) : asmImmOk (.dec v) = true ↔ -32768 ≤ v ∧ v ≤ 32767 := by
  simp [asmImmOk]

theorem asmImmOk_hex_iff (v : Nat) : asmImmOk (.hex v) = true ↔ v < 65536 := by
  simp [asmImmOk]

theorem assemble_norm_of_ok {v : AsmImm} (h : asmImmOk v = true) :
    assemble (.norm v) = some [encode (.norm (asmImmBits v))] :=
  if_pos h

theorem assemble_norm_of_not_ok {v : AsmImm} (h : ¬asmImmOk v = true) : assemble (.norm v) = none :=
  if_neg h

/-- The signed decimal of a pattern spells that pattern. -/
theorem asmImmBits_dec_toInt (v : Half) : asmImmBits (.dec v.toInt) = v := BitVec.ofInt_toInt

/-- The hex spelling of a pattern spells that pattern. -/
theorem asmImmBits_hex_toNat (v : Half) : asmImmBits (.hex v.toNat) = v := by
  rw [asmImmBits, BitVec.ofNat_toNat, BitVec.setWidth_eq]

/-- Settles O52: the ranges of the two spellings are those of a 16-bit pattern, signed and unsigned. -/
theorem bothSpellingsOfAnImmediateAgree : Obligations.BothSpellingsOfAnImmediateAgree := by
  refine ⟨fun v => ⟨?decimal, ?hex⟩, ?decimalRefused, ?hexRefused⟩
  case decimal =>
    have hok : asmImmOk (.dec v.toInt) = true := (asmImmOk_dec_iff _).mpr ⟨v.le_toInt, BitVec.toInt_le⟩
    rw [assemble_norm_of_ok hok, asmImmBits_dec_toInt]
  case hex =>
    rw [assemble_norm_of_ok ((asmImmOk_hex_iff _).mpr v.isLt), asmImmBits_hex_toNat]
  case decimalRefused =>
    intro n hn
    exact assemble_norm_of_not_ok (by rw [asmImmOk_dec_iff]; omega)
  case hexRefused =>
    intro n hn
    exact assemble_norm_of_not_ok (by rw [asmImmOk_hex_iff]; omega)

end Sys2Proof.Machine
end

section
/-! CAL (R58, R96): three shadow writes and a COMMIT, presented one after another. -/

namespace Sys2Proof.Machine

/-- A run whose first presented word is a command's is that command, then the rest of the run. -/
theorem run_command {n : Nat} {s t : State} {i : Instr} {rest : List Stimulus}
    (hs : s.inputs = Stimulus.command (encode i) :: rest) (he : exec i { s with inputs := rest } = .next t) :
    Sys2Proof.core.run (n + 1) s = Sys2Proof.core.run n t := by
  have hstep : Sys2Proof.core.step s = .next t :=
    (stepRunsTheDecodedCommand s _ rest i hs rfl rfl (decode_encode i)).trans he
  simp only [Host.Core.run, hstep]

/-- The state in which the COMMIT of a CAL finds the shadow registers, with `rest` still driven. -/
def State.pendingCal (s : State) (lo hi : Half) (rev : Bool) (rest : List Stimulus) : State :=
  ((({ s with inputs := rest } : State).setShMin lo).setShMax hi).setShCfg (revPayload rev)

@[simp] theorem State.calMin_pendingCal (s : State) (lo hi : Half) (rev : Bool) (rest : List Stimulus) :
    (s.pendingCal lo hi rev rest).calMin = s.calMin := rfl
@[simp] theorem State.calMax_pendingCal (s : State) (lo hi : Half) (rev : Bool) (rest : List Stimulus) :
    (s.pendingCal lo hi rev rest).calMax = s.calMax := rfl
@[simp] theorem State.cfg_pendingCal (s : State) (lo hi : Half) (rev : Bool) (rest : List Stimulus) :
    (s.pendingCal lo hi rev rest).cfg = s.cfg := rfl
@[simp] theorem State.shMin_pendingCal (s : State) (lo hi : Half) (rev : Bool) (rest : List Stimulus) :
    (s.pendingCal lo hi rev rest).shMin = lo := rfl
@[simp] theorem State.shMax_pendingCal (s : State) (lo hi : Half) (rev : Bool) (rest : List Stimulus) :
    (s.pendingCal lo hi rev rest).shMax = hi := rfl
@[simp] theorem State.shCfg_pendingCal (s : State) (lo hi : Half) (rev : Bool) (rest : List Stimulus) :
    (s.pendingCal lo hi rev rest).shCfg = revPayload rev := rfl
@[simp] theorem State.inputs_pendingCal (s : State) (lo hi : Half) (rev : Bool) (rest : List Stimulus) :
    (s.pendingCal lo hi rev rest).inputs = rest := rfl
@[simp] theorem State.flag_pendingCal (s : State) (lo hi : Half) (rev : Bool) (rest : List Stimulus) (b : StatusBit) :
    (s.pendingCal lo hi rev rest).flag b = s.flag b := rfl

theorem execCommit_of_eq {s : State} (h : s.shMin = s.shMax) : execCommit s = .next (s.raise .commitRejected) := by
  rw [execCommit, if_pos h]

theorem execCommit_of_ne {s : State} (h : s.shMin ≠ s.shMax) : execCommit s = .next s.installCalibration := by
  rw [execCommit, if_neg h]

/-- The four words of a CAL write the shadow registers and run a COMMIT on them. -/
theorem run_cal {s : State} {lo hi : Half} {rev : Bool} {rest : List Stimulus}
    (hs : s.inputs = [encode (.wrmin lo), encode (.wrmax hi), encode (.wrcfg rev), encode .commit].map Stimulus.command ++
      rest) :
    Sys2Proof.core.run 4 s = execCommit (s.pendingCal lo hi rev rest) :=
  calc Sys2Proof.core.run 4 s
    _ = Sys2Proof.core.run 3 _ := run_command hs rfl
    _ = Sys2Proof.core.run 2 _ := run_command rfl rfl
    _ = Sys2Proof.core.run 1 _ := run_command rfl rfl
    _ = Sys2Proof.core.run 0 _ := run_command rfl rfl

/-- A CAL with its three operands assembles to its four words, and `rev` is 0 or 1. -/
theorem assemble_cal_eq_some {lo hi : AsmImm} {rev : Nat} {words : List CmdWord}
    (h : assemble (.cal lo hi (some rev)) = some words) :
    rev < 2 ∧ words = [encode (.wrmin (asmImmBits lo)), encode (.wrmax (asmImmBits hi)),
      encode (.wrcfg (asmRevBit rev)), encode .commit] := by
  unfold assemble at h
  split_ifs at h with hok
  simp only [asmLineOk, Bool.and_eq_true, decide_eq_true_eq] at hok
  exact ⟨hok.2, (Option.some.inj h).symm⟩

theorem toNat_revPayload_asmRevBit {rev : Nat} (h : rev < 2) : (revPayload (asmRevBit rev)).toNat = rev := by
  obtain rfl | rfl : rev = 0 ∨ rev = 1 := by omega
  · rfl
  · rfl

/-- Settles O39: the COMMIT of the four words finds the operands in the shadow registers, and accepts or rejects them. -/
theorem calPseudoInstructionInstallsTheBounds : Obligations.CalPseudoInstructionInstallsTheBounds := by
  intro lo hi rev s words rest hasm hs
  obtain ⟨hrev, rfl⟩ := assemble_cal_eq_some hasm
  have hcfg := toNat_revPayload_asmRevBit hrev
  by_cases heq : asmImmBits lo = asmImmBits hi
  case pos =>
    refine ⟨_, (run_cal hs).trans (execCommit_of_eq heq), ?_⟩
    simp [heq, hcfg, ErrorCause.bit]
  case neg =>
    refine ⟨_, (run_cal hs).trans (execCommit_of_ne heq), ?_⟩
    simp [heq, hcfg]

end Sys2Proof.Machine
end

section
/-! Fixed words and lines of the spec, evaluated. -/

namespace Sys2Proof

/-- Settles O10: the decoder evaluated on the thirteen words. -/
theorem specWordsDecodeAsListed : Obligations.SpecWordsDecodeAsListed := by
  unfold Obligations.SpecWordsDecodeAsListed
  decide

/-- Settles O53: the assembler evaluated on the lines of the spec. -/
theorem assemblerTextMatchesTheExamples : Obligations.AssemblerTextMatchesTheExamples := by
  unfold Obligations.AssemblerTextMatchesTheExamples
  decide

end Sys2Proof
end

section
/-! The calibration commands (R59 to R63): their words, the one register each shadow write touches, the two outcomes of
COMMIT, and what the family keeps of the last result. -/

namespace Sys2Proof

/-- An opcode's word with the payload written below it is the format of both (R49). -/
theorem formatWord_or_setWidth (op : BitVec 4) (p : Half) : formatWord op 0#16 ||| p.setWidth 32 = formatWord op p := by
  apply BitVec.eq_of_getLsbD_eq
  intro i hi
  simp only [BitVec.getLsbD_or, formatWord_getLsbD, BitVec.getLsbD_setWidth, hi]
  by_cases h16 : i < 16
  · simp [h16]
  · simp [h16, BitVec.getLsbD_of_ge p i (by omega)]

theorem decode_formatWord_or_setWidth (op : BitVec 4) (p : Half) :
    decode (formatWord op 0#16 ||| p.setWidth 32) = decodeOp op p := by
  rw [formatWord_or_setWidth, decode_formatWord]

/-- `zext_16(rev)`, written as an extension of the one bit (R61). -/
theorem revPayload_eq_setWidth (rev : Bool) : revPayload rev = (BitVec.ofBool rev).setWidth 16 := by
  cases rev <;> rfl

theorem revPayload_setWidth (rev : Bool) : (revPayload rev).setWidth 32 = (BitVec.ofBool rev).setWidth 32 := by
  cases rev <;> rfl

namespace Machine

/-- Settles O18: the word is WRMIN's format, and the command is the one shadow write. -/
theorem wrminWritesOnlyTheShadowMinimum : Obligations.WrminWritesOnlyTheShadowMinimum :=
  fun imm _ => ⟨decode_formatWord_or_setWidth 0x1#4 imm, rfl⟩

/-- Settles O19: the word is WRMAX's format, and the command is the one shadow write. -/
theorem wrmaxWritesOnlyTheShadowMaximum : Obligations.WrmaxWritesOnlyTheShadowMaximum :=
  fun imm _ => ⟨decode_formatWord_or_setWidth 0x2#4 imm, rfl⟩

/-- Settles O20: the two words are WRCFG's encodings, and any other payload below its opcode sets a reserved bit. -/
theorem wrcfgWritesOnlyTheShadowConfiguration : Obligations.WrcfgWritesOnlyTheShadowConfiguration := by
  refine ⟨fun rev s => ⟨?word, ?effect⟩, ?illegal⟩
  case word =>
    have hword : 0x00030000#32 ||| (revPayload rev).setWidth 32 = encode (.wrcfg rev) := formatWord_or_setWidth 0x3#4 _
    rw [← revPayload_setWidth, hword, decode_encode]
  case effect =>
    rw [← revPayload_eq_setWidth]
    rfl
  case illegal =>
    intro p hp
    obtain ⟨e, he⟩ := (revOfPayload_error_iff p).mpr hp
    exact ⟨e, (decode_formatWord_or_setWidth 0x3#4 p).trans he⟩

/-- Settles O21: the word is COMMIT's only encoding, and the test on the shadow bounds picks the outcome. -/
theorem commitInstallsOrRejectsThePendingCalibration : Obligations.CommitInstallsOrRejectsThePendingCalibration := by
  refine ⟨fun w => decode_eq_ok_iff, fun s => ⟨?accepted, ?rejected⟩⟩
  case accepted =>
    intro hne
    refine ⟨s.installCalibration, execCommit_of_ne hne, rfl, by simp, fun n hn => ?_⟩
    rw [State.status_bit_installCalibration, if_neg hn]
  case rejected =>
    intro heq
    refine ⟨s.raise .commitRejected, execCommit_of_eq heq, rfl, by simp [ErrorCause.bit], fun n hn => ?_⟩
    rw [State.status_bit_raise]
    exact if_neg hn

/-- COMMIT keeps NORM_OUT, LAST_RAW and every bit of STATUS but CAL_VALID and COMMIT_REJ (R63). -/
theorem execCommit_keeps_result (s : State) :
    ∃ t, execCommit s = .next t ∧ t.normOut = s.normOut ∧ t.lastRaw = s.lastRaw ∧
      ∀ n, n ≠ 1 → n ≠ 6 → t.status.getLsbD n = s.status.getLsbD n := by
  by_cases h : s.shMin = s.shMax
  case pos =>
    refine ⟨_, execCommit_of_eq h, rfl, rfl, fun n _ h6 => ?_⟩
    rw [State.status_bit_raise]
    exact if_neg h6
  case neg =>
    refine ⟨_, execCommit_of_ne h, rfl, rfl, fun n h1 _ => ?_⟩
    rw [State.status_bit_installCalibration, if_neg h1]

/-- Settles O27: a shadow write keeps every register but its own, and COMMIT is `execCommit_keeps_result`. -/
theorem calibrationFamilyKeepsTheResult : Obligations.CalibrationFamilyKeepsTheResult := by
  rintro i s (rfl | ⟨imm, rfl⟩ | ⟨imm, rfl⟩ | ⟨rev, rfl⟩)
  · obtain ⟨t, ht, hout, hraw, hstatus⟩ := execCommit_keeps_result s
    exact ⟨t, ht, hout, hraw, hstatus, fun hne => absurd rfl hne⟩
  · exact ⟨s.setShMin imm, rfl, by simp⟩
  · exact ⟨s.setShMax imm, rfl, by simp⟩
  · exact ⟨s.setShCfg (revPayload rev), rfl, by simp⟩

end Machine

end Sys2Proof
end

section
/-! What NORM reads (R63, R97): CAL_VALID picks its effect, and the effect reads the active calibration alone. -/

namespace Sys2Proof.Machine

theorem State.norm_of_calValid {s : State} (h : s.flag .calValid = true) (db : Nat) (imm : Half) :
    s.norm db imm = s.normCalibrated db imm := by
  rw [State.norm, if_pos h]

theorem State.norm_of_not_calValid {s : State} (h : s.flag .calValid = false) (db : Nat) (imm : Half) :
    s.norm db imm = s.normUncalibrated imm :=
  if_neg (Bool.eq_false_iff.mp h)

/-- Settles O37: the two states take the same effect of NORM, and calibrated they have the same result. -/
theorem normNeverReadsTheShadows : Obligations.NormNeverReadsTheShadows := by
  intro imm s u s' u' hmin hmax hcfg hvalid hs hu
  injection hs with hs
  injection hu with hu
  subst hs hu
  cases hv : s.flag .calValid with
  | true =>
    have hresult : s.normResult Config.pDeadband imm = u.normResult Config.pDeadband imm :=
      State.normResult_congr _ imm hmin hmax hcfg
    rw [State.norm_of_calValid hv, State.norm_of_calValid (hvalid.symm.trans hv)]
    simp [hresult]
  | false =>
    rw [State.norm_of_not_calValid hv, State.norm_of_not_calValid (hvalid.symm.trans hv)]
    simp

end Sys2Proof.Machine
end

section
/-! The pieces of NORM's arithmetic (R66 to R69): each end of the deadband, the exact fraction that the rescale rounds
down, its fixed-width datapath, and how each piece grows with its argument. -/

namespace Sys2Proof.Machine

theorem deadband_of_le {s db : Nat} (h : s ≤ db) : deadband s db = (0, true, false) := if_pos h

/-- Up to the widest legal deadband, the upper dead zone lies above the lower one (R7, R67). -/
theorem deadband_of_ge {s db : Nat} (hdb : db ≤ 127) (h : 256 - db ≤ s) : deadband s db = (256, false, true) := by
  have hlow : ¬s ≤ db := by omega
  exact (if_neg hlow).trans (if_pos h)

theorem deadband_of_between {s db : Nat} (hlow : db < s) (hhigh : s < 256 - db) :
    deadband s db = (s, false, false) :=
  (if_neg (Nat.not_le.mpr hlow)).trans (if_neg (Nat.not_le.mpr hhigh))

/-- Settles O42: one clause for each of the deadband's three outcomes. -/
theorem deadbandClampsBothEnds : Obligations.DeadbandClampsBothEnds :=
  fun _ _ _ hdb => ⟨deadband_of_le, deadband_of_ge hdb, deadband_of_between⟩

theorem deadband_value (s db : Nat) :
    (deadband s db).1 = if s ≤ db then 0 else if 256 - db ≤ s then 256 else s := by
  rw [deadband, apply_ite Prod.fst, apply_ite Prod.fst]
  rfl

theorem deadband_dbLo_iff (s db : Nat) : (deadband s db).2.1 = true ↔ s ≤ db := by
  rcases deadband_cases s db with ⟨h, hd⟩ | ⟨h, -, hd⟩ | ⟨h, -, hd⟩ <;> simp [hd, h]

theorem deadband_dbHi_iff {s db : Nat} (hdb : db ≤ 127) : (deadband s db).2.2 = true ↔ 256 - db ≤ s := by
  rcases deadband_cases s db with ⟨h, hd⟩ | ⟨-, h, hd⟩ | ⟨-, h, hd⟩
  · have hlow : ¬256 - db ≤ s := by omega
    simp [hd, hlow]
  · simp [hd, h]
  · simp [hd, Nat.not_le.mpr h]

/-- No value inside a dead zone comes out of the deadband, edges included (R71). -/
theorem deadband_avoids (s : Nat) {db : Nat} (hdb : db ≤ 127) :
    ¬(1 ≤ (deadband s db).1 ∧ (deadband s db).1 ≤ db) ∧
    ¬(256 - db ≤ (deadband s db).1 ∧ (deadband s db).1 ≤ 255) := by
  rcases deadband_cases s db with ⟨-, hd⟩ | ⟨-, -, hd⟩ | ⟨hlow, hhigh, hd⟩ <;> simp only [hd] <;> omega

theorem deadband_mono {s s' : Nat} (h : s ≤ s') (db : Nat) : (deadband s db).1 ≤ (deadband s' db).1 := by
  rw [deadband_value, deadband_value]
  split_ifs <;> omega

/-- Outside the interval on the side of `lo`, the sample is clamped to `lo` (R66). -/
theorem clampRaw_beyond_lo {raw lo hi : Int} (h : (raw < lo ∧ lo < hi) ∨ (hi < lo ∧ lo < raw)) :
    clampRaw raw lo hi = (lo, true) := by
  refine Prod.ext ?value ?clip
  case value =>
    show max (min lo hi) (min raw (max lo hi)) = lo
    omega
  case clip =>
    have hout : raw < min lo hi ∨ max lo hi < raw := by omega
    simpa [clampRaw] using hout

/-- The clamp does not tell the two bounds apart (R66). -/
theorem clampRaw_comm (raw lo hi : Int) : clampRaw raw lo hi = clampRaw raw hi lo := by
  simp only [clampRaw, min_comm, max_comm]

theorem clampRaw_beyond_hi {raw lo hi : Int} (h : (lo < hi ∧ hi < raw) ∨ (raw < hi ∧ hi < lo)) :
    clampRaw raw lo hi = (hi, true) := by
  rw [clampRaw_comm, clampRaw_beyond_lo h.symm]

theorem clampRaw_at_lo {raw lo : Int} (h : raw = lo) (hi : Int) : clampRaw raw lo hi = (lo, false) :=
  h ▸ clampRaw_of_inside (min_le_left raw hi) (le_max_left raw hi)

theorem clampRaw_at_hi {raw hi : Int} (h : raw = hi) (lo : Int) : clampRaw raw lo hi = (hi, false) := by
  rw [clampRaw_comm, clampRaw_at_lo h]

theorem clampRaw_clip_iff (raw lo hi : Int) : (clampRaw raw lo hi).2 = true ↔ raw < min lo hi ∨ max lo hi < raw := by
  simp [clampRaw]

/-- A sample between the bounds is no farther from `lo` than `hi` is, so the rescale stays in 0..256 (R68). -/
theorem scale_le {c lo hi : Int} (hne : lo ≠ hi) (h1 : min lo hi ≤ c) (h2 : c ≤ max lo hi) : scale c lo hi ≤ 256 := by
  have hdist : (c - lo).natAbs ≤ (hi - lo).natAbs := by omega
  rw [scale_of_ne hne]
  exact Nat.div_le_of_le_mul (Nat.mul_le_mul_right 256 hdist)

/-- Both differences from `lo` have the same sign, so the quotient of their magnitudes is their quotient (R68). -/
theorem natAbs_div_natAbs_eq {c lo hi : Int} (h1 : min lo hi ≤ c) (h2 : c ≤ max lo hi) :
    ((c - lo).natAbs : ℚ) / ((hi - lo).natAbs : ℚ) = ((c - lo : Int) : ℚ) / ((hi - lo : Int) : ℚ) := by
  rw [← Int.cast_natCast (R := ℚ), ← Int.cast_natCast (R := ℚ)]
  rcases le_total lo hi with h | h
  · rw [Int.natAbs_of_nonneg (by omega : 0 ≤ c - lo), Int.natAbs_of_nonneg (by omega : 0 ≤ hi - lo)]
  · rw [Int.ofNat_natAbs_of_nonpos (by omega : c - lo ≤ 0), Int.ofNat_natAbs_of_nonpos (by omega : hi - lo ≤ 0),
      Int.cast_neg, Int.cast_neg, neg_div_neg_eq]

/-- Settles O40: the natural quotient is the floor of the rational one, and the two differences have one sign. -/
theorem scaleIsTheFloorOfTheExactFraction : Obligations.ScaleIsTheFloorOfTheExactFraction := by
  intro c lo hi hne h1 h2
  refine ⟨?floor, scale_le hne h1 h2, scale_lo hne, scale_hi hne⟩
  rw [scale_of_ne hne, ← natAbs_div_natAbs_eq h1 h2, div_mul_eq_mul_div, Int.natCast_div]
  exact_mod_cast (Rat.floor_natCast_div_natCast _ _).symm

/-- The result never decreases as the sample moves from `lo` toward `hi`: the clamped sample gets no nearer to `lo`
(R71). -/
theorem scale_clampRaw_mono {p q lo hi : Int} (h : (lo < hi ∧ p ≤ q) ∨ (hi < lo ∧ q ≤ p)) :
    scale (clampRaw p lo hi).1 lo hi ≤ scale (clampRaw q lo hi).1 lo hi := by
  have hne : lo ≠ hi := by omega
  have hdist : ((clampRaw p lo hi).1 - lo).natAbs ≤ ((clampRaw q lo hi).1 - lo).natAbs := by
    simp only [clampRaw]
    omega
  rw [scale_of_ne hne, scale_of_ne hne]
  exact Nat.div_le_div_right (Nat.mul_le_mul_right 256 hdist)

theorem toNat_abs_eq_natAbs_toInt {n : Nat} (x : BitVec n) : x.abs.toNat = x.toInt.natAbs := by
  have hx := x.isLt
  rw [BitVec.toNat_abs, BitVec.toInt_eq_msb_cond]
  split_ifs <;> omega

/-- The distance of two int16 values is at most 65535 (R69). -/
theorem natAbs_toInt_sub_le (x y : Half) : (x.toInt - y.toInt).natAbs ≤ 65535 := by
  have hx := x.le_toInt
  have hx' := x.toInt_lt
  have hy := y.le_toInt
  have hy' := y.toInt_lt
  omega

/-- A datapath of 24 bits has room for the signed difference of two int16 values (R69). -/
theorem toNat_absDiffBits {n : Nat} (hn : 24 ≤ n) (x y : Half) :
    (absDiffBits n x y).toNat = (x.toInt - y.toInt).natAbs := by
  have hpow : 2 ^ 24 ≤ 2 ^ n := Nat.pow_le_pow_right (by decide) hn
  have hle := natAbs_toInt_sub_le x y
  have hsub : (x.signExtend n - y.signExtend n).toInt = x.toInt - y.toInt := by
    rw [BitVec.toInt_sub, BitVec.toInt_signExtend_of_le (by omega), BitVec.toInt_signExtend_of_le (by omega)]
    exact Int.bmod_eq_of_le_mul_two (by omega) (by omega)
  calc (absDiffBits n x y).toNat
    _ = (x.signExtend n - y.signExtend n).abs.toNat := rfl
    _ = (x.toInt - y.toInt).natAbs := by rw [toNat_abs_eq_natAbs_toInt, hsub]

/-- A datapath of 24 bits has room for 256 times the distance from `lo` (R69). -/
theorem toNat_scaleBits {n : Nat} (hn : 24 ≤ n) (c : Half) {lo hi : Half} (hne : lo.toInt ≠ hi.toInt) :
    (scaleBits n c lo hi).toNat = scale c.toInt lo.toInt hi.toInt := by
  have hpow : 2 ^ 24 ≤ 2 ^ n := Nat.pow_le_pow_right (by decide) hn
  have hle := natAbs_toInt_sub_le c lo
  have hroom : (c.toInt - lo.toInt).natAbs * 2 ^ 8 < 2 ^ n := by omega
  rw [scaleBits, BitVec.toNat_udiv, BitVec.toNat_shiftLeft, toNat_absDiffBits hn, toNat_absDiffBits hn,
    Nat.shiftLeft_eq, Nat.mod_eq_of_lt hroom]
  exact (scale_of_ne hne _).symm

/-- Settles O41: neither the difference nor its multiple overflows 24 bits, so the datapath computes the quotient. -/
theorem datapathOf24BitsOrMoreAgrees : Obligations.DatapathOf24BitsOrMoreAgrees := by
  intro n c lo hi hn hne h1 h2
  have hne' : lo.toInt ≠ hi.toInt := fun h => hne (BitVec.toInt_inj.mp h)
  have hnum := natAbs_toInt_sub_le c lo
  refine ⟨toNat_scaleBits hn c hne', hnum, by omega, natAbs_toInt_sub_le hi lo, by omega, scale_le hne' h1 h2, ?_⟩
  exact fun db => (deadband_range _ db).1

end Sys2Proof.Machine
end

section
/-! NORM on a state (R64 to R72): the effective bounds and the scaled sample of a state, its result written with them,
and what the command leaves in NORM_OUT and STATUS. -/

namespace Sys2Proof.Machine

variable {s t : State}

/-- The raw value that maps to 0 under the active calibration (R65). -/
def State.effLo (s : State) : Int := if s.cfg.getLsbD 0 then s.calMax.toInt else s.calMin.toInt

/-- The raw value that maps to 256 under the active calibration (R65). -/
def State.effHi (s : State) : Int := if s.cfg.getLsbD 0 then s.calMin.toInt else s.calMax.toInt

theorem State.effLo_of_rev (h : s.cfg.getLsbD 0 = true) : s.effLo = s.calMax.toInt := if_pos h

theorem State.effHi_of_rev (h : s.cfg.getLsbD 0 = true) : s.effHi = s.calMin.toInt := if_pos h

theorem State.effLo_of_not_rev (h : s.cfg.getLsbD 0 = false) : s.effLo = s.calMin.toInt :=
  if_neg (Bool.eq_false_iff.mp h)

theorem State.effHi_of_not_rev (h : s.cfg.getLsbD 0 = false) : s.effHi = s.calMax.toInt :=
  if_neg (Bool.eq_false_iff.mp h)

theorem State.effBounds_eq (s : State) :
    effBounds s.calMin.toInt s.calMax.toInt (revBit s.cfg) = (s.effLo, s.effHi) := by
  unfold revBit
  cases h : s.cfg.getLsbD 0 with
  | false => rw [effBounds_false, State.effLo_of_not_rev h, State.effHi_of_not_rev h]
  | true => rw [effBounds_true, State.effLo_of_rev h, State.effHi_of_rev h]

theorem State.effLo_ne_effHi (h : s.calMin ≠ s.calMax) : s.effLo ≠ s.effHi := by
  have hne : s.calMin.toInt ≠ s.calMax.toInt := fun he => h (BitVec.toInt_inj.mp he)
  have hbounds := effBounds_ne hne (revBit s.cfg)
  rwa [State.effBounds_eq] at hbounds

/-- The clamped and rescaled sample, before the deadband (R66, R68). -/
def State.scaled (s : State) (imm : Half) : Nat := scale (clampRaw imm.toInt s.effLo s.effHi).1 s.effLo s.effHi

/-- The result of R64 is the deadband of the scaled sample, with the clip flag of the clamp. -/
theorem State.normResult_eq (s : State) (db : Nat) (imm : Half) :
    s.normResult db imm = ⟨(deadband (s.scaled imm) db).1, (deadband (s.scaled imm) db).2.1,
      (deadband (s.scaled imm) db).2.2, (clampRaw imm.toInt s.effLo s.effHi).2⟩ := by
  simp only [State.normResult, normalizeSample, sext16, State.effBounds_eq, State.scaled]

/-- A sample clamped to the lower effective bound, from inside or outside, is in the closed dead zone (R70). -/
theorem State.normResult_of_clamp_lo (hne : s.effLo ≠ s.effHi) (db : Nat) {imm : Half} {clip : Bool}
    (hc : clampRaw imm.toInt s.effLo s.effHi = (s.effLo, clip)) : s.normResult db imm = ⟨0, true, false, clip⟩ := by
  have hv : s.scaled imm = 0 := by rw [State.scaled, hc, scale_lo hne]
  rw [State.normResult_eq, hv, deadband_of_le (Nat.zero_le db), hc]

/-- A sample clamped to the upper effective bound, from inside or outside, is in the full dead zone (R70). -/
theorem State.normResult_of_clamp_hi (hne : s.effLo ≠ s.effHi) {db : Nat} (hdb : db ≤ 127) {imm : Half} {clip : Bool}
    (hc : clampRaw imm.toInt s.effLo s.effHi = (s.effHi, clip)) : s.normResult db imm = ⟨256, false, true, clip⟩ := by
  have hv : s.scaled imm = 256 := by rw [State.scaled, hc, scale_hi hne]
  rw [State.normResult_eq, hv, deadband_of_ge hdb (Nat.sub_le 256 db), hc]

/-- The midpoint scenario of §8 lies outside every legal deadband (R70). -/
theorem normalizeSample_midpoint {db : Nat} (hdb : db ≤ 127) :
    normalizeSample db 0 (-2048) 2048 false = ⟨128, false, false, false⟩ := by
  have hclamp : clampRaw 0 (-2048) 2048 = (0, false) := by decide
  have hscale : scale 0 (-2048) 2048 = 128 := by decide
  simp only [normalizeSample, effBounds_false, hclamp, hscale, deadband_of_between (by omega : db < 128) (by omega)]

theorem exec_norm_of_calValid (hv : s.flag .calValid = true) (imm : Half) :
    exec (.norm imm) s = .next (s.normCalibrated Config.pDeadband imm) :=
  congrArg Host.Outcome.next (State.norm_of_calValid hv _ imm)

theorem exec_norm_of_not_calValid (hv : s.flag .calValid = false) (imm : Half) :
    exec (.norm imm) s = .next (s.normUncalibrated imm) :=
  congrArg Host.Outcome.next (State.norm_of_not_calValid hv _ imm)

theorem eq_normCalibrated_of_exec (hv : s.flag .calValid = true) {imm : Half} (h : exec (.norm imm) s = .next t) :
    t = s.normCalibrated Config.pDeadband imm :=
  Host.Outcome.next.inj (h.symm.trans (exec_norm_of_calValid hv imm))

theorem eq_normUncalibrated_of_exec (hv : s.flag .calValid = false) {imm : Half} (h : exec (.norm imm) s = .next t) :
    t = s.normUncalibrated imm :=
  Host.Outcome.next.inj (h.symm.trans (exec_norm_of_not_calValid hv imm))

/-- NORM_OUT of a calibrated NORM is the deadband of the scaled sample (R64). -/
theorem State.toNat_normOut_normCalibrated_eq (s : State) (db : Nat) (imm : Half) :
    (s.normCalibrated db imm).normOut.toNat = (deadband (s.scaled imm) db).1 := by
  rw [State.toNat_normOut_normCalibrated, State.normResult_eq]

/-- Settles O23: CAL_VALID picks the effect, and each register and bit of it is the one the rule gives. -/
theorem normComputesTheNormalizedValue : Obligations.NormComputesTheNormalizedValue := by
  intro imm s
  refine ⟨decode_formatWord_or_setWidth 0x5#4 imm, ?calibrated, ?uncalibrated⟩
  case calibrated =>
    intro hv hne lo hi raw c v
    have hscaled : s.scaled imm = v := scale_of_ne (State.effLo_ne_effHi hne) c
    refine ⟨_, exec_norm_of_calValid hv imm, rfl, ?value, ?outValid, ?dbLo, ?dbHi, ?clip, ?frame⟩
    case value => rw [State.toNat_normOut_normCalibrated_eq, hscaled, deadband_value]
    case outValid => rw [State.flag_normCalibrated]
    case dbLo => rw [State.flag_normCalibrated, State.normResult_eq, hscaled, deadband_dbLo_iff]
    case dbHi => rw [State.flag_normCalibrated, State.normResult_eq, hscaled, deadband_dbHi_iff Config.pDeadband_le]
    case clip =>
      rw [State.flag_normCalibrated, State.normResult_eq]
      exact clampRaw_clip_iff raw lo hi
    case frame =>
      intro n h0 h2 h3 h4
      rw [State.status_bit_normCalibrated, if_neg h0, if_neg h2, if_neg h3, if_neg h4]
  case uncalibrated =>
    intro hv
    refine ⟨_, exec_norm_of_not_calValid hv imm, rfl, ?_⟩
    simp only [State.flag_normUncalibrated, true_and]
    intro n hn
    rw [State.status_bit_normUncalibrated, if_neg (by omega), if_neg (by omega)]

/-- Settles O43: a sample at or beyond a bound is clamped to it, and the clip flag tells which. -/
theorem normEndpointsAreExact : Obligations.NormEndpointsAreExact := by
  intro imm s t hv hne hex lo hi
  obtain rfl : t = s.normCalibrated Config.pDeadband imm := eq_normCalibrated_of_exec hv hex
  have hne' : s.effLo ≠ s.effHi := State.effLo_ne_effHi hne
  have hresLo {clip : Bool} (hc : clampRaw imm.toInt lo hi = (lo, clip)) :
      s.normResult Config.pDeadband imm = ⟨0, true, false, clip⟩ := State.normResult_of_clamp_lo hne' _ hc
  have hresHi {clip : Bool} (hc : clampRaw imm.toInt lo hi = (hi, clip)) :
      s.normResult Config.pDeadband imm = ⟨256, false, true, clip⟩ :=
    State.normResult_of_clamp_hi hne' Config.pDeadband_le hc
  simp only [State.normOut_normCalibrated, State.flag_normCalibrated]
  refine ⟨?lo, ?hi, ?beyondLo, ?beyondHi, ?midpoint⟩
  case lo =>
    intro h
    simp [hresLo (clampRaw_at_lo h hi), halfOfNat]
  case hi =>
    intro h
    simp [hresHi (clampRaw_at_hi h lo), halfOfNat]
  case beyondLo =>
    intro h
    simp [hresLo (clampRaw_beyond_lo h), halfOfNat]
  case beyondHi =>
    intro h
    simp [hresHi (clampRaw_beyond_hi h), halfOfNat]
  case midpoint =>
    rintro hmin hmax hrev rfl
    have hmid : s.normResult Config.pDeadband 0#16 = ⟨128, false, false, false⟩ := by
      simp only [State.normResult, sext16, hmin, hmax, revBit, hrev]
      exact normalizeSample_midpoint Config.pDeadband_le
    simp [hmid, halfOfNat]

/-- Settles O44: the calibrated result comes out of the deadband, and the placeholder is 0. -/
theorem normOutputAvoidsTheDeadbands : Obligations.NormOutputAvoidsTheDeadbands := by
  intro imm s t hex
  have hdb := Config.pDeadband_le
  cases hv : s.flag .calValid with
  | true =>
    rw [eq_normCalibrated_of_exec hv hex, State.toNat_normOut_normCalibrated_eq]
    obtain ⟨hlow, hhigh⟩ := deadband_avoids (s.scaled imm) hdb
    exact ⟨(deadband_range _ _).1, hlow, hhigh, nofun⟩
  | false =>
    rw [eq_normUncalibrated_of_exec hv hex, State.normOut_normUncalibrated, BitVec.toNat_ofNat]
    exact ⟨by omega, by omega, by omega, fun _ => rfl⟩

/-- Settles O45: the clamp, the rescale and the deadband each keep the order of the samples. -/
theorem normIsMonotoneOverTriggerTravel : Obligations.NormIsMonotoneOverTriggerTravel := by
  intro p q s t u hv _ ht hu lo hi h
  rw [eq_normCalibrated_of_exec hv ht, eq_normCalibrated_of_exec hv hu, State.toNat_normOut_normCalibrated_eq,
    State.toNat_normOut_normCalibrated_eq]
  exact deadband_mono (scale_clampRaw_mono h) _

/-- Settles O46: the two states have the same effective bounds, hence the same result. -/
theorem reverseSwapsTheBounds : Obligations.ReverseSwapsTheBounds := by
  intro imm s u s' u' hs hu hmin hmax hvalid hexs hexu
  cases hv : s.flag .calValid with
  | true =>
    have hlo : s.effLo = u.effLo := by rw [State.effLo_of_rev hs, State.effLo_of_not_rev hu, hmax]
    have hhi : s.effHi = u.effHi := by rw [State.effHi_of_rev hs, State.effHi_of_not_rev hu, hmin]
    have hresult : s.normResult Config.pDeadband imm = u.normResult Config.pDeadband imm := by
      simp only [State.normResult_eq, State.scaled, hlo, hhi]
    rw [eq_normCalibrated_of_exec hv hexs, eq_normCalibrated_of_exec (hvalid.symm.trans hv) hexu]
    simp [hresult]
  | false =>
    rw [eq_normUncalibrated_of_exec hv hexs, eq_normUncalibrated_of_exec (hvalid.symm.trans hv) hexu]
    simp

end Sys2Proof.Machine
end

section
/-! The control commands (R73, R74) and the idle step (R75): what each leaves unchanged, and the words of their opcodes
that are no command. -/

namespace Sys2Proof

/-- A payload bit that R53 reserves, written below the opcode's word, makes that word illegal. -/
theorem decode_error_of_reservedPayloadSet {op : BitVec 4} {p : Half} (h : ReservedPayloadSet op p) :
    ∃ e, decode (formatWord op 0#16 ||| p.setWidth 32) = .error e := by
  rw [decode_formatWord_or_setWidth]
  exact (decodeOp_error_iff op p).mpr (.inr h)

namespace Machine

/-- Settles O13: the idle edge answers the state it is given, and no output reads the list of driven signals. -/
theorem idleStepChangesNoState : Obligations.IdleStepChangesNoState :=
  fun _ _ _ hs hv hr => ⟨(step_cons hs).trans (clockEdge_of_idle hr hv _), fun _ => rfl⟩

/-- Settles O17: the word is NOP's encoding, and any other payload of its opcode sets a reserved bit. -/
theorem nopWritesNoState : Obligations.NopWritesNoState := by
  refine ⟨fun _ => rfl, decode_encode .nop, fun p hp => ?_⟩
  rw [← BitVec.zero_or (x := p.setWidth 32)]
  exact decode_error_of_reservedPayloadSet (op := 0x0#4) (.inl ⟨.inl rfl, hp⟩)

/-- Settles O25: `State.acknowledge` told bit by bit, and any other payload of CLRSTS's opcode sets a reserved bit. -/
theorem clrstsClearsOnlyTheStickyBits : Obligations.ClrstsClearsOnlyTheStickyBits := by
  refine ⟨fun s => ?effect, decode_encode .clrsts, ?illegal⟩
  case effect =>
    refine ⟨s.acknowledge, rfl, rfl, by simp [State.errO], by simp, by simp, by simp, fun n h5 h6 h7 => ?_⟩
    rw [State.status_bit_acknowledge, if_neg (by simp [h5, h6, h7])]
  case illegal =>
    exact fun _ hp => decode_error_of_reservedPayloadSet (op := 0x6#4) (.inl ⟨.inr (.inr rfl), hp⟩)

end Machine

end Sys2Proof
end

section
/-! The step that raises an error (R77 to R80): what it answers when the presented word, COMMIT or NORM is the cause. -/

namespace Sys2Proof.Machine

variable {s : State}

theorem step_of_presents {i : Instr} (hp : s.presents i) : step s = exec i s.taken := by
  obtain ⟨t, ht⟩ := step_completes s
  exact ht.trans (exec_of_presents ht hp).symm

theorem present_of_decode_error {w : CmdWord} {e : DecodeReject} (h : decode w = .error e) (s : State) :
    present w s = .next (s.raise .illegalCommand) := by
  simp only [present, h]

/-- Settles O15: decoding fails, so the edge does nothing but raise IllegalCommand. -/
theorem illegalWordOnlySetsIllegal : Obligations.IllegalWordOnlySetsIllegal := by
  rintro s x rest hs hr hv ⟨e, he⟩
  have hstep : step s = .next (({ s with inputs := rest } : State).raise .illegalCommand) := by
    simp [step_cons hs, clockEdge, hr, hv, present_of_decode_error he]
  refine ⟨_, hstep, rfl, by simp [ErrorCause.bit], fun n hn => ?_⟩
  rw [State.status_bit_raise]
  exact if_neg hn

/-- Settles O22: the step is COMMIT's, and equal shadow bounds make it raise CommitRejected. -/
theorem commitOfEqualBoundsIsRejectedInItsStep : Obligations.CommitOfEqualBoundsIsRejectedInItsStep := by
  intro s hp heq
  refine ⟨s.taken.raise .commitRejected, (step_of_presents hp).trans (execCommit_of_eq heq), ?_⟩
  simp [ErrorCause.bit]

/-- Settles O24: the step is NORM's, and without calibration it stores the placeholder and raises CalibrationInvalid. -/
theorem uncalibratedNormRaisesCalErrInItsStep : Obligations.UncalibratedNormRaisesCalErrInItsStep := by
  intro imm s hp hv
  have hex : exec (.norm imm) s.taken = .next (s.taken.normUncalibrated imm) :=
    exec_norm_of_not_calValid (s := s.taken) hv imm
  exact ⟨_, (step_of_presents hp).trans hex, by simp⟩

end Sys2Proof.Machine
end

section
/-! The one error of a step (R82) and `err_o` (R84): `State.nextError` is the only cause that can set its sticky bit, so
`err_o` rises with it and stays until CLRSTS or reset. -/

namespace Sys2Proof.Machine

variable {s t : State}

/-- What the host drives, and the state it finds, that raises an error (R78 to R80). -/
def State.Causes (s : State) : ErrorCause → Prop
  | .calibrationInvalid => (∃ imm, s.presents (.norm imm)) ∧ s.flag .calValid = false
  | .commitRejected => s.presents .commit ∧ s.shMin = s.shMax
  | .illegalCommand => s.presentsIllegal

theorem commandError_eq_some_iff {i : Instr} {e : ErrorCause} :
    commandError i s = some e ↔
      ((∃ imm, i = .norm imm) ∧ s.flag .calValid = false ∧ e = .calibrationInvalid) ∨
      (i = .commit ∧ s.shMin = s.shMax ∧ e = .commitRejected) := by
  cases i with
  | norm imm => cases hv : s.flag .calValid <;> simp [commandError, hv, eq_comm (a := e)]
  | commit => by_cases h : s.shMin = s.shMax <;> simp [commandError, h, eq_comm (a := e)]
  | nop | wrmin _ | wrmax _ | wrcfg _ | clrsts => simp [commandError]

theorem State.nextError_of_presents {i : Instr} (hp : s.presents i) : s.nextError = commandError i s := by
  obtain ⟨x, rest, hs, hr, hv, hd⟩ := hp
  simp [State.nextError, stimulusError, hs, hr, hv, hd]

theorem State.nextError_of_presentsIllegal (hi : s.presentsIllegal) : s.nextError = some .illegalCommand := by
  obtain ⟨x, rest, e, hs, hr, hv, hd⟩ := hi
  simp [State.nextError, stimulusError, hs, hr, hv, hd]

theorem State.nextError_of_resets (hr : s.resets) : s.nextError = none := by
  obtain ⟨x, rest, hs, hr⟩ := hr
  simp [State.nextError, stimulusError, hs, hr]

/-- An error is raised by an illegal word or by a command (R77). -/
theorem State.presents_of_nextError {e : ErrorCause} (h : s.nextError = some e) :
    s.presentsIllegal ∨ ∃ i, s.presents i := by
  unfold State.nextError stimulusError at h
  split at h
  · contradiction
  · next x rest hs =>
    split_ifs at h with hr hv
    have hr' : x.rst = false := Bool.eq_false_iff.mpr hr
    cases hd : decode x.cmd with
    | error r => exact .inl ⟨x, rest, r, hs, hr', hv, hd⟩
    | ok i => exact .inr ⟨i, x, rest, hs, hr', hv, hd⟩

theorem State.nextError_eq_some_iff {e : ErrorCause} : s.nextError = some e ↔ s.Causes e := by
  constructor
  · intro h
    rcases State.presents_of_nextError h with hi | ⟨i, hp⟩
    · rw [State.nextError_of_presentsIllegal hi] at h
      cases h
      exact hi
    · rw [State.nextError_of_presents hp] at h
      rcases commandError_eq_some_iff.mp h with ⟨⟨imm, rfl⟩, hv, rfl⟩ | ⟨rfl, hsh, rfl⟩
      · exact ⟨⟨imm, hp⟩, hv⟩
      · exact ⟨hp, hsh⟩
  · intro h
    cases e with
    | calibrationInvalid =>
      obtain ⟨⟨imm, hp⟩, hv⟩ := h
      exact (State.nextError_of_presents hp).trans (commandError_eq_some_iff.mpr (.inl ⟨⟨imm, rfl⟩, hv, rfl⟩))
    | commitRejected =>
      obtain ⟨hp, hsh⟩ := h
      exact (State.nextError_of_presents hp).trans (commandError_eq_some_iff.mpr (.inr ⟨rfl, hsh, rfl⟩))
    | illegalCommand => exact State.nextError_of_presentsIllegal h

/-- The rule of the sticky bits, said of any error cause: raised in the step, or held by it (R31). -/
theorem flag_errorBit_step_iff (hst : step s = .next t) (e : ErrorCause) :
    t.flag e.bit = true ↔
      s.nextError = some e ∨ (s.flag e.bit = true ∧ ¬s.presents .clrsts ∧ ¬s.resets) := by
  obtain ⟨hcal, hrej, hill⟩ := stickyBitsFollowTheirCauses s t hst
  rw [State.nextError_eq_some_iff]
  cases e with
  | calibrationInvalid => exact hcal
  | commitRejected => exact hrej
  | illegalCommand => exact hill

/-- A sticky bit that rises in a step is that of the step's error. -/
theorem nextError_of_rise (hst : step s = .next t) {e : ErrorCause} (hs : s.flag e.bit = false)
    (ht : t.flag e.bit = true) : s.nextError = some e := by
  rcases (flag_errorBit_step_iff hst e).mp ht with h | ⟨h, -⟩
  · exact h
  · exact absurd h (Bool.eq_false_iff.mp hs)

/-- Settles O31: each of the two bits is that of the step's one error. -/
theorem atMostOneErrorBitIsSetPerStep : Obligations.AtMostOneErrorBitIsSetPerStep := by
  intro s t e f hst hse hte hsf htf
  have he : s.nextError = some e := nextError_of_rise hst hse hte
  have hf : s.nextError = some f := nextError_of_rise hst hsf htf
  exact Option.some.inj (he.symm.trans hf)

theorem State.errO_iff (s : State) : s.errO = true ↔ ∃ e : ErrorCause, s.flag e.bit = true := by
  simp only [State.errO, Bool.or_eq_true, or_assoc]
  constructor
  · rintro (h | h | h)
    · exact ⟨.calibrationInvalid, h⟩
    · exact ⟨.commitRejected, h⟩
    · exact ⟨.illegalCommand, h⟩
  · rintro ⟨e, h⟩
    cases e with
    | calibrationInvalid => exact .inl h
    | commitRejected => exact .inr (.inl h)
    | illegalCommand => exact .inr (.inr h)

/-- `err_o` after a step: an error was raised, or `err_o` was 1 and the step was neither CLRSTS nor reset (R84). -/
theorem errO_step_iff (hst : step s = .next t) :
    t.errO = true ↔ s.nextError ≠ none ∨ (s.errO = true ∧ ¬s.presents .clrsts ∧ ¬s.resets) := by
  rw [State.errO_iff, State.errO_iff, Option.ne_none_iff_exists']
  simp only [flag_errorBit_step_iff hst, exists_or, exists_and_right]

theorem nextError_of_errO_rise (hst : step s = .next t) (hs : s.errO = false) (ht : t.errO = true) :
    s.nextError ≠ none := by
  rcases (errO_step_iff hst).mp ht with h | ⟨h, -⟩
  · exact h
  · exact absurd h (Bool.eq_false_iff.mp hs)

theorem State.nextError_of_acknowledged (h : s.presents .clrsts ∨ s.resets) : s.nextError = none := by
  rcases h with hp | hr
  · exact State.nextError_of_presents hp
  · exact State.nextError_of_resets hr

/-- Settles O32: its four clauses about a step are `errO_step_iff` read forwards and backwards. -/
theorem errOutputHoldsUntilAcknowledged : Obligations.ErrOutputHoldsUntilAcknowledged := by
  refine ⟨fun s => ?or, fun s t hst => ⟨?falls, ?acknowledged, ?raised, ?rises⟩⟩
  case or => simp [State.errO, State.flag, StatusBit.index, or_assoc]
  case falls =>
    intro hs ht
    by_contra hack
    obtain ⟨hc, hr⟩ := not_or.mp hack
    exact Bool.eq_false_iff.mp ht ((errO_step_iff hst).mpr (.inr ⟨hs, hc, hr⟩))
  case acknowledged =>
    intro hack
    rw [Bool.eq_false_iff, ne_eq, errO_step_iff hst]
    rintro (h | ⟨-, hc, hr⟩)
    · exact h (State.nextError_of_acknowledged hack)
    · exact hack.elim hc hr
  case raised => exact fun h => (errO_step_iff hst).mpr (.inl h)
  case rises => exact nextError_of_errO_rise hst

/-- A safe step raises no error, so `err_o` does not rise in it. -/
theorem errO_of_safeStep (hst : step s = .next t) (hsafe : s.SafeStep) (hs : s.errO = false) : t.errO = false := by
  rw [Bool.eq_false_iff]
  exact fun ht => nextError_of_errO_rise hst hs ht hsafe

/-- Settles O51, by induction over the run. -/
theorem safeRunsNeverRaiseErrOutput : Obligations.SafeRunsNeverRaiseErrOutput := by
  intro n
  induction n with
  | zero =>
    intro s t hs _ hrun
    injection hrun with hrun
    exact hrun ▸ hs
  | succ n ih =>
    rintro s t hs ⟨hsafe, hrest⟩ hrun
    obtain ⟨u, hu, hrun'⟩ := run_succ hrun
    exact ih u t (errO_of_safeStep hu hsafe hs) (hrest u hu) hrun'

end Sys2Proof.Machine
end

section
/-! Power-up is a reset (R93): the state before the first step is what `resetRegisters` makes of itself, so the laws of
reset apply to it. -/

namespace Sys2Proof.Machine

theorem State.resetRegisters_reset : State.reset.resetRegisters = State.reset := rfl

/-- Reset clears the three sticky bits, and `err_o` is their OR (R84). -/
@[simp] theorem State.errO_resetRegisters (s : State) : s.resetRegisters.errO = false := by
  simp [State.errO]

/-- Settles O2: the power-up state is a reset state, and reset zeroes the registers, CAL_VALID and `err_o`. -/
theorem powerUpStateIsTheResetState : Obligations.PowerUpStateIsTheResetState := by
  unfold Obligations.PowerUpStateIsTheResetState
  rw [← State.resetRegisters_reset]
  exact ⟨State.calMin_resetRegisters _, State.calMax_resetRegisters _, State.cfg_resetRegisters _,
    State.shMin_resetRegisters _, State.shMax_resetRegisters _, State.shCfg_resetRegisters _,
    State.normOut_resetRegisters _, State.lastRaw_resetRegisters _, State.status_resetRegisters _,
    State.flag_resetRegisters _ .calValid, State.errO_resetRegisters _⟩

end Sys2Proof.Machine
end
